-- ==== Sys2Proof/Word.lean ====
section
/-! DEFINITION. The word types of the 8080 core: data are 8 bits wide, addresses, pc and sp 16 bits (00_scope.md R7). -/

namespace Sys2Proof

/-- An 8-bit data value (`u8` of R9). -/
abbrev Byte := BitVec 8

/-- A 16-bit value: an address, pc, sp or a register pair (`u16` of R9). -/
abbrev Addr := BitVec 16

end Sys2Proof
end

