-- ==== Sys2Proof/Machine/Bits.lean ====
section
/-! DEFINITION. Byte order and bit fields (00_scope.md R9): the two bytes of a 16-bit value, the value two bytes make, and the fields of an opcode byte (30_encoding.md R81). -/

namespace Sys2Proof

/-- `v[15:8]` (R9). -/
def hiByte (v : Addr) : Byte := BitVec.ofNat 8 (v.toNat / 256)

/-- `v[7:0]` (R9). -/
def loByte (v : Addr) : Byte := BitVec.ofNat 8 v.toNat

/-- `hi : lo`, the 16-bit value `hi * 256 + lo` (R9). -/
def joinBytes (hi lo : Byte) : Addr := BitVec.ofNat 16 (hi.toNat * 256 + lo.toNat)

/-- Bits 5:3 of an opcode byte: DDD, CCC, NNN or ALU (R81). -/
def field53 (op : Byte) : BitVec 3 := op.extractLsb' 3 3

/-- Bits 2:0 of an opcode byte: SSS (R81). -/
def field20 (op : Byte) : BitVec 3 := op.extractLsb' 0 3

/-- Bits 5:4 of an opcode byte: RP (R81). -/
def field54 (op : Byte) : BitVec 2 := op.extractLsb' 4 2

/-- Bits 7:6 of an opcode byte: the instruction class (R81). -/
def field76 (op : Byte) : BitVec 2 := op.extractLsb' 6 2

end Sys2Proof
end

