-- ==== Sys2Proof/Config.lean ====
section
/-! DEFINITION. The launch parameters the spec leaves open (00_scope.md R8) as one record of plain data, and the free values as opaque constants. -/

namespace Sys2Proof

/-- SUB_AC_RULE (R8, R125): how AC is computed after a subtraction. -/
inductive SubAcRule where
  | intel | free
deriving DecidableEq, Repr

/-- DAA_MODE (R8, R189): how DAA adjusts A. -/
inductive DaaMode where
  | twoStep | silicon | either
deriving DecidableEq, Repr

/-- The parameters of R8 that stay fixed while the machine runs. State holds them as data that no step changes, so a
statement about every state is a statement for every value of them (log entry 3). -/
structure Config where
  /-- READ_REDIRECT (R55, D18): whether reads of (0x4000, 0xFFFF] are redirected like writes. -/
  readRedirect : Bool
  /-- SUB_AC_RULE (R125, D4). -/
  subAcRule : SubAcRule
  /-- DAA_MODE (R189, D6). -/
  daaMode : DaaMode
  /-- PORT_DIP1, PORT_DIP2 (R320, D20): IN ports of the DIP-switch registers. -/
  portDip1 : Byte
  portDip2 : Byte
  /-- PORT_SHIFT_RESULT (R320, D20): IN port of the shift result. -/
  portShiftResult : Byte
  /-- PORT_SHIFT_OFFSET (R320, D20): OUT port of the shift offset. -/
  portShiftOffset : Byte
  /-- PORT_SHIFT_FILL (R320, D20): OUT port of the shift fill. -/
  portShiftFill : Byte
  /-- VEC_A, VEC_B (R310, D13): the two interrupt vectors. -/
  vecA : Addr
  vecB : Addr
deriving DecidableEq, Repr

/-- The values the spec takes or gives as defaults in R8. DESIGN CHOICE (log entry 3). -/
def Config.defaults : Config where
  readRedirect := false
  subAcRule := .intel
  daaMode := .twoStep
  portDip1 := 1
  portDip2 := 2
  portShiftResult := 3
  portShiftOffset := 2
  portShiftFill := 4
  vecA := 0x0008
  vecB := 0x0010

/-- The byte an IN from an unmapped port returns, the draw of R320 and R325 (A4): a free value (log entry 4), applied to
the number of draws made before it. -/
opaque Config.ioDraw : Nat → Byte

/-- AC after a subtraction when SUB_AC_RULE = free (R125): a free value (log entry 4). -/
opaque Config.acDraw : Nat → Bool

/-- Whether a DAA with DAA_MODE = either gives the silicon result rather than the two-step one (R189): a free choice
(log entry 4). -/
opaque Config.daaDraw : Nat → Bool

end Sys2Proof
end

