-- ==== Sys2Proof/Machine/State.lean ====
section
/-! DEFINITION. The state of the machine: the core's registers (10_state.md), memory (20_memory.md), the I/O devices (60_exceptions.md), what the last step reported (30_encoding.md R104), and the launch parameters (00_scope.md R8). -/

namespace Sys2Proof.Machine

/-- The five flags (R27). -/
structure Flags where
  s : Bool
  z : Bool
  ac : Bool
  p : Bool
  cy : Bool
deriving DecidableEq, Repr

/-- The signal of a byte write presented in the ROM zone, whose byte is dropped (R302). -/
structure RomWriteDropped where
  addr : Addr
  value : Byte
deriving DecidableEq, Repr

/-- Memory as (address, byte) pairs, addresses strictly rising, no byte equal to what an unlisted address reads as
(`Memory.unlisted`, log entry 1). -/
abbrev Memory := List Host.Cell

/-- Everything the spec gives the machine. -/
structure State where
  /-- The registers of R20, with the reserved slot 6 that no instruction reaches (R21). -/
  b : Byte
  c : Byte
  d : Byte
  e : Byte
  h : Byte
  l : Byte
  a : Byte
  slot6 : Byte
  /-- R25: the address of the next opcode byte; inside an instruction's meaning, of its own opcode byte. -/
  pc : Addr
  /-- R26. -/
  sp : Addr
  /-- R27. -/
  flags : Flags
  /-- The interrupt-enable latch (R30). -/
  inte : Bool
  /-- The halted state (R31). -/
  halted : Bool
  /-- The 65536 memory cells (R51). -/
  mem : Memory
  /-- The two DIP-switch registers, set by the host (R321). -/
  dip1 : Byte
  dip2 : Byte
  /-- The shift register (R322). -/
  shift : BitVec 16
  /-- The shift offset (R323). -/
  offset : BitVec 3
  /-- The cycle cost the last executed instruction reported (R104, R106; log entry 5). -/
  cycles : Nat
  /-- The signals of the last executed instruction or interrupt dispatch, oldest first (R104, R302; log entry 5). -/
  diags : List RomWriteDropped
  /-- The MODEL's own field: how many free values have been drawn (log entry 4). -/
  draws : Nat
  /-- The launch parameters (R8; log entry 3). -/
  cfg : Config
deriving DecidableEq, Repr

/-- Why the machine stops. -/
inductive Fault where
  /-- R300, the only fault: the opcode byte `op` has no row. Raised by `step`, the state unchanged. Safe: with the table of
  R89 no byte raises it (R91). -/
  | decodeGap (op : Byte)
deriving DecidableEq, Repr

/-- Why the model gives an instruction no meaning. -/
inductive Refusal where
  /-- An instruction of the opcode table that has no meaning yet. Raised by `exec`'s arm for it; no arm raises it now. Safe. -/
  | notModelled (mnemonic : String)
deriving DecidableEq, Repr

/-- What an instruction's meaning and a step answer. -/
abbrev Result := Host.Outcome State Fault Refusal

/-- The machine right after reset (R34, R340): every field of the core state zero. Memory and devices are launch
arguments (R341); this state takes them all zero (log entries 1 and 2), and the parameters at the spec's defaults
(log entry 3). -/
def State.reset : State where
  b := 0
  c := 0
  d := 0
  e := 0
  h := 0
  l := 0
  a := 0
  slot6 := 0
  pc := 0
  sp := 0
  flags := { s := false, z := false, ac := false, p := false, cy := false }
  inte := false
  halted := false
  mem := []
  dip1 := 0
  dip2 := 0
  shift := 0
  offset := 0
  cycles := 0
  diags := []
  draws := 0
  cfg := Config.defaults

end Sys2Proof.Machine
end

