-- ==== Sys2Proof/Syntax.lean ====
section
/-! DEFINITION. The instructions of the 8080 core: one constructor of `Instr` for each row of spec/opcode_table.json, and the names of their operands. -/

namespace Sys2Proof

/-- The seven registers a DDD or SSS field can name (R82). Code 6 is no register: it selects the byte at HL, and the
forms that use it are constructors of their own. -/
inductive Reg where
  | b | c | d | e | h | l | a
deriving DecidableEq, Repr

/-- The register pairs of LXI, INX, DCX and DAD (R22). -/
inductive Pair where
  | bc | de | hl | sp
deriving DecidableEq, Repr

/-- The register pairs of PUSH rp and POP rp (R260, R262); PSW has rows of its own. -/
inductive StackPair where
  | bc | de | hl
deriving DecidableEq, Repr

/-- The register pairs of LDAX and STAX (R150, R151). -/
inductive IndexPair where
  | bc | de
deriving DecidableEq, Repr

/-- The eight conditions of the CCC field, in code order (R87). -/
inductive Cond where
  | nz | z | nc | c | po | pe | p | m
deriving DecidableEq, Repr

/-- The instructions, in the order of spec/opcode_table.json. -/
inductive Instr where
  -- data transfer (41_data_transfer.md)
  | movRR (dst src : Reg)                -- R140
  | movRM (dst : Reg)                    -- R141
  | movMR (src : Reg)                    -- R142
  | mviR (dst : Reg) (imm : Byte)        -- R143
  | mviM (imm : Byte)                    -- R144
  | lxi (rp : Pair) (imm : Addr)         -- R145
  | lda (adr : Addr)                     -- R146
  | sta (adr : Addr)                     -- R147
  | lhld (adr : Addr)                    -- R148
  | shld (adr : Addr)                    -- R149
  | ldax (rp : IndexPair)                -- R150
  | stax (rp : IndexPair)                -- R151
  | xchg                                 -- R152
  -- arithmetic, logical and compare on A (42_arithmetic.md, 43_logical.md)
  | addR (src : Reg)                     -- R170
  | addM                                 -- R171
  | adi (imm : Byte)                     -- R172
  | adcR (src : Reg)                     -- R173
  | adcM                                 -- R174
  | aci (imm : Byte)                     -- R175
  | subR (src : Reg)                     -- R176
  | subM                                 -- R177
  | sui (imm : Byte)                     -- R178
  | sbbR (src : Reg)                     -- R179
  | sbbM                                 -- R180
  | sbi (imm : Byte)                     -- R181
  | anaR (src : Reg)                     -- R210
  | anaM                                 -- R211
  | ani (imm : Byte)                     -- R212
  | xraR (src : Reg)                     -- R213
  | xraM                                 -- R214
  | xri (imm : Byte)                     -- R215
  | oraR (src : Reg)                     -- R216
  | oraM                                 -- R217
  | ori (imm : Byte)                     -- R218
  | cmpR (src : Reg)                     -- R219
  | cmpM                                 -- R220
  | cpi (imm : Byte)                     -- R221
  -- increment, decrement, pairs (42_arithmetic.md)
  | inrR (dst : Reg)                     -- R182
  | inrM                                 -- R183
  | dcrR (dst : Reg)                     -- R184
  | dcrM                                 -- R185
  | inx (rp : Pair)                      -- R186
  | dcx (rp : Pair)                      -- R187
  | dad (rp : Pair)                      -- R188
  -- rotates, accumulator and carry (43_logical.md), decimal adjust (42_arithmetic.md)
  | rlc                                  -- R222
  | rrc                                  -- R223
  | ral                                  -- R224
  | rar                                  -- R225
  | daa                                  -- R189
  | cma                                  -- R226
  | stc                                  -- R228
  | cmc                                  -- R227
  -- branch (44_branch.md)
  | jmp (adr : Addr)                     -- R240
  | jcc (cc : Cond) (adr : Addr)         -- R241
  | call (adr : Addr)                    -- R242
  | ccc (cc : Cond) (adr : Addr)         -- R243
  | ret                                  -- R244
  | rcc (cc : Cond)                      -- R245
  | rst (n : BitVec 3)                   -- R246
  | pchl                                 -- R247
  -- stack, I/O and machine control (45_stack_io_control.md)
  | pushRp (rp : StackPair)              -- R260
  | pushPsw                              -- R261
  | popRp (rp : StackPair)               -- R262
  | popPsw                               -- R263
  | xthl                                 -- R264
  | sphl                                 -- R265
  | inp (port : Byte)                    -- R266
  | out (port : Byte)                    -- R267
  | ei                                   -- R268
  | di                                   -- R269
  | hlt                                  -- R270
  | nop                                  -- R271
  -- alternate encodings (46_alternate_opcodes.md)
  | nopAlt (n : BitVec 3)                -- R290, n in 1..7
  | jmpAlt (adr : Addr)                  -- R291
  | retAlt                               -- R292
  | callAlt (p : BitVec 2) (adr : Addr)  -- R293, p in 1..3
deriving DecidableEq, Repr

end Sys2Proof
end

