-- ==== Sys2Proof/Machine/Ops.lean ====
section
/-! DEFINITION. The named operations over memory, registers, the stack, the I/O devices and the program counter, and the interrupt dispatch, the one exception the machine takes. -/

namespace Sys2Proof.Machine

/-! ### Memory cells (R51) -/

/-- What a cell holds that the memory list does not name. DESIGN CHOICE (log entry 1): the spec leaves INIT_MEM open
(R341) and takes 0x00 in its own vectors. -/
def Memory.unlisted : Byte := 0

/-- The byte in cell `k`: the stored value (`read` of R51). -/
def Memory.read : Memory → Nat → Byte
  | [], _ => Memory.unlisted
  | (j, v) :: m, k => if j = k then v else Memory.read m k

/-- Memory with byte `v` in cell `k`, in canonical form. -/
def Memory.write : Memory → Nat → Byte → Memory
  | [], k, v => if v = Memory.unlisted then [] else [(k, v)]
  | (j, w) :: m, k, v =>
    if k < j then
      if v = Memory.unlisted then (j, w) :: m else (k, v) :: (j, w) :: m
    else if k = j then
      if v = Memory.unlisted then m else (k, v) :: m
    else (j, w) :: Memory.write m k v

/-- The canonical form from address `lo` on: addresses at least `lo`, strictly rising and below 0x10000, no byte equal to
what an unlisted cell holds. -/
def Memory.wfFrom : Nat → Memory → Bool
  | _, [] => true
  | lo, (k, v) :: m => decide (lo ≤ k) && decide (k < 0x10000) && v != Memory.unlisted && Memory.wfFrom (k + 1) m

/-- The canonical form of a memory list. -/
def Memory.wf (m : Memory) : Bool := Memory.wfFrom 0 m

/-! ### The memory port (R52 to R56) -/

/-- The cell a mirror-zone address reaches: `a` itself up to 0x4000, and above it `a - 0x2000 * k` with `k` the least
integer at least 1 that brings it to at most 0x4000 (R54). -/
def redirect (a : Nat) : Nat :=
  if a ≤ 0x4000 then a else a - 0x2000 * ((a - 0x4000 + 0x1FFF) / 0x2000)

/-- The cell a write to `a` stores to; none in the ROM zone (R53). -/
def storeCell (a : Addr) : Option Nat :=
  if a.toNat < 0x2000 then none else some (redirect a.toNat)

/-- The cell a read of `a` returns (R52): `a`'s own, or the redirected one when READ_REDIRECT is true. -/
def readCell (cfg : Config) (a : Addr) : Nat :=
  if cfg.readRedirect then redirect a.toNat else a.toNat

/-- `MemRead(a, 1)` (R52). -/
def State.memRead (s : State) (a : Addr) : Byte := s.mem.read (readCell s.cfg a)

/-- `MemWrite(a, 1, v)` (R53): stored in the cell `storeCell` gives, or dropped with the signal of R302. -/
def State.memWrite (s : State) (a : Addr) (v : Byte) : State :=
  match storeCell a with
  | none => { s with diags := s.diags ++ [{ addr := a, value := v }] }
  | some k => { s with mem := s.mem.write k v }

/-- `load(k, v)` (R56): sets cell `k` with no zone check and no signal; only the ROM loader uses it. -/
def State.load (s : State) (k : Nat) (v : Byte) : State := { s with mem := s.mem.write k v }

/-- `MemRead(a, 2)` (R10, R60): low byte at `a`, high byte at `a + 1 mod 2^16`. -/
def State.memRead16 (s : State) (a : Addr) : Addr := joinBytes (s.memRead (a + 1)) (s.memRead a)

/-- `MemWrite(a, 2, v)` (R10, R60): the low byte first, at `a`, then the high byte at `a + 1 mod 2^16`. -/
def State.memWrite16 (s : State) (a v : Addr) : State := (s.memWrite a (loByte v)).memWrite (a + 1) (hiByte v)

/-! ### Registers (R10, R20, R22) -/

/-- `x[i]` (R10). -/
def State.reg (s : State) : Reg → Byte
  | .b => s.b
  | .c => s.c
  | .d => s.d
  | .e => s.e
  | .h => s.h
  | .l => s.l
  | .a => s.a

/-- `x[i] <- v` (R10). -/
def State.setReg (s : State) (r : Reg) (v : Byte) : State :=
  match r with
  | .b => { s with b := v }
  | .c => { s with c := v }
  | .d => { s with d := v }
  | .e => { s with e := v }
  | .h => { s with h := v }
  | .l => { s with l := v }
  | .a => { s with a := v }

/-- `rp(p)` (R22): the high byte in the first register. -/
def State.pair (s : State) : Pair → Addr
  | .bc => joinBytes s.b s.c
  | .de => joinBytes s.d s.e
  | .hl => joinBytes s.h s.l
  | .sp => s.sp

/-- `set_rp(p, v)` (R22). -/
def State.setPair (s : State) (p : Pair) (v : Addr) : State :=
  match p with
  | .bc => { s with b := hiByte v, c := loByte v }
  | .de => { s with d := hiByte v, e := loByte v }
  | .hl => { s with h := hiByte v, l := loByte v }
  | .sp => { s with sp := v }

/-! ### The stack (R61, R62) -/

/-- `push16(v)` (R61): the high byte to `sp - 1`, then the low byte to `sp - 2`, then `sp` down by 2. -/
def State.push16 (s : State) (v : Addr) : State :=
  { ((s.memWrite (s.sp - 1) (hiByte v)).memWrite (s.sp - 2) (loByte v)) with sp := s.sp - 2 }

/-- The value `pop16()` returns (R62): the low byte at `sp`, the high byte at `sp + 1`. -/
def State.top16 (s : State) : Addr := s.memRead16 s.sp

/-- What `pop16()` does to the state (R62): `sp` up by 2. -/
def State.dropTop (s : State) : State := { s with sp := s.sp + 2 }

/-! ### The end of an instruction (R13, R103, R106) -/

/-- `pc <- target`, with the instruction's cycle cost reported. -/
def State.jump (s : State) (target : Addr) (cost : Nat) : State := { s with pc := target, cycles := cost }

/-- `pc <- pc + len mod 2^16`, with the instruction's cycle cost reported. -/
def State.retire (s : State) (len : Addr) (cost : Nat) : State := s.jump (s.pc + len) cost

/-! ### The I/O interface (R320 to R325) -/

/-- The byte at the shift-result port: bits `15 - offset` down to `8 - offset` of the shift register (R323). -/
def shiftResult (shift : BitVec 16) (offset : BitVec 3) : Byte :=
  BitVec.ofNat 8 ((shift.toNat <<< offset.toNat) >>> 8)

/-- `A <- IoRead(p)` (R320, R266): the first port parameter that equals `p` wins; a port no device has gives a draw
(R325). A read has no effect on a device. -/
def State.inputToA (s : State) (p : Byte) : State :=
  if p = s.cfg.portDip1 then { s with a := s.dip1 }
  else if p = s.cfg.portDip2 then { s with a := s.dip2 }
  else if p = s.cfg.portShiftResult then { s with a := shiftResult s.shift s.offset }
  else { s with a := Config.ioDraw s.draws, draws := s.draws + 1 }

/-- `IoWrite(p, v)` (R320): the shift fill (R322), the shift offset (R323), or nothing (R325). -/
def State.output (s : State) (p v : Byte) : State :=
  if p = s.cfg.portShiftFill then { s with shift := joinBytes (loByte s.shift) v }
  else if p = s.cfg.portShiftOffset then { s with offset := v.extractLsb' 0 3 }
  else s

/-! ### The interrupt dispatch (R310 to R312): taking an exception -/

/-- What a request `interrupt(v)` gives back (R311, R312). -/
inductive InterruptOutcome where
  /-- `inte` was 0: nothing changes and the request is lost (R312). -/
  | notAccepted
  /-- `inte` was 1: the state at the vector; its `diags` are the dispatch's own signals (R311). -/
  | accepted (s : State)
deriving DecidableEq, Repr

/-- The dispatch of R311: push pc, the address of the next instruction, through the memory port, take the vector, clear
`inte` and `halted`. It reports no cycles. There is no instruction that returns from an interrupt: a handler returns by
RET (R315). -/
def State.dispatch (s : State) (v : Addr) : State :=
  { ({ s with diags := [] }).push16 s.pc with pc := v, inte := false, halted := false }

/-- `interrupt(v)`, a request of the host between batches (R310). -/
def interrupt (v : Addr) (s : State) : InterruptOutcome :=
  if s.inte then .accepted (s.dispatch v) else .notAccepted

end Sys2Proof.Machine
end

