-- ==== Sys2Proof/Machine/Alternate.lean ====
section
/-! DEFINITION. The alternate opcode encodings (46_alternate_opcodes.md): each behaves as the instruction it duplicates. -/

namespace Sys2Proof.Machine

/-- NOP, the alternates 0x08 to 0x38 (R290): whatever `n` is. -/
def execNopAlt (_n : BitVec 3) (s : State) : Result := .next (s.retire 1 4)

/-- JMP a16, the alternate 0xCB (R291). -/
def execJmpAlt (adr : Addr) (s : State) : Result := .next (s.jump adr 10)

/-- RET, the alternate 0xD9 (R292). -/
def execRetAlt (s : State) : Result := .next (s.dropTop.jump s.top16 10)

/-- CALL a16, the alternates 0xDD, 0xED, 0xFD (R293): whatever `p` is. -/
def execCallAlt (_p : BitVec 2) (adr : Addr) (s : State) : Result := .next ((s.push16 (s.pc + 3)).jump adr 17)

end Sys2Proof.Machine
end

