-- ==== Sys2Proof/Machine/Flags.lean ====
section
/-! DEFINITION. The ALU functions and flag computations (40_alu_flags.md, and DAA of 42_arithmetic.md R189), each computed on natural numbers and narrowed at the end, and the operations that write their results. -/

namespace Sys2Proof.Machine

/-- An 8-bit result with the flags it sets. -/
structure AluResult where
  value : Byte
  flags : Flags
deriving DecidableEq, Repr

/-- `popcount(v)` (R9). -/
def popcount (v : Byte) : Nat := ((List.range 8).map fun i => (v.getLsbD i).toNat).sum

/-- The flags of an 8-bit result (R120, R122), with the given AC and CY. -/
def szp (r : Byte) (ac cy : Bool) : Flags where
  s := r.getLsbD 7
  z := r == 0
  ac := ac
  p := popcount r % 2 == 0
  cy := cy

/-- The low four bits of a byte, `v mod 16`. -/
abbrev lowNibble (v : Byte) : Nat := v.toNat % 16

/-- `add8(a, b, c)` (R123). -/
def add8 (a b : Byte) (c : Bool) : AluResult :=
  let t := a.toNat + b.toNat + c.toNat
  let r := BitVec.ofNat 8 t
  { value := r, flags := szp r (decide (lowNibble a + lowNibble b + c.toNat > 0xF)) (decide (t > 0xFF)) }

/-- `ac_sub(a, b, c)` of SUB_AC_RULE = intel (R125): the carry out of bit 3 of `a + (255 - b) + (1 - c)`. -/
def acSubIntel (a b : Byte) (c : Bool) : Bool :=
  decide (lowNibble a + (255 - b.toNat) % 16 + (1 - c.toNat) > 0xF)

/-- `sub8(a, b, c)` (R124), CY the borrow, with AC given. -/
def sub8 (a b : Byte) (c ac : Bool) : AluResult :=
  let r := BitVec.ofInt 8 ((a.toNat : Int) - b.toNat - c.toNat)
  { value := r, flags := szp r ac (decide (a.toNat < b.toNat + c.toNat)) }

/-- `and8(a, b)` (R126). -/
def and8 (a b : Byte) : AluResult := { value := a &&& b, flags := szp (a &&& b) ((a ||| b).getLsbD 3) false }

/-- `xor8(a, b)` (R126). -/
def xor8 (a b : Byte) : AluResult := { value := a ^^^ b, flags := szp (a ^^^ b) false false }

/-- `or8(a, b)` (R126). -/
def or8 (a b : Byte) : AluResult := { value := a ||| b, flags := szp (a ||| b) false false }

/-- `inc8(v)` (R127); `cy` is the CY it leaves. -/
def inc8 (v : Byte) (cy : Bool) : AluResult :=
  { value := v + 1, flags := szp (v + 1) (decide (lowNibble v = 0xF)) cy }

/-- `dec8(v)` (R127); `cy` is the CY it leaves. -/
def dec8 (v : Byte) (cy : Bool) : AluResult :=
  { value := v - 1, flags := szp (v - 1) (decide (lowNibble v ≠ 0)) cy }

/-- The carry of `add16(x, y)` (R128). -/
def carry16 (x y : Addr) : Bool := decide (x.toNat + y.toNat > 0xFFFF)

/-- `cond(ccc)` (R129). -/
def condHolds (f : Flags) : Cond → Bool
  | .nz => !f.z
  | .z => f.z
  | .nc => !f.cy
  | .c => f.cy
  | .po => !f.p
  | .pe => f.p
  | .p => !f.s
  | .m => f.s

/-- DAA in DAA_MODE = two_step (R189): the low nibble first, then the high nibble of the result; a carry out of the
first step is lost. -/
def daaTwoStep (a : Byte) (ac cy : Bool) : AluResult :=
  let low := decide (lowNibble a > 9) || ac
  let a1 := if low then (a.toNat + 0x06) % 0x100 else a.toNat
  let high := decide (a1 / 16 > 9) || cy
  let r := BitVec.ofNat 8 (if high then a1 + 0x60 else a1)
  { value := r, flags := szp r (low && decide (lowNibble a + 6 > 0xF)) (cy || (high && decide (a1 + 0x60 > 0xFF))) }

/-- DAA in DAA_MODE = silicon (R189): both corrections decided from the original A. -/
def daaSilicon (a : Byte) (ac cy : Bool) : AluResult :=
  let lo := lowNibble a
  let hi := a.toNat / 16
  let low := decide (lo > 9) || ac
  let high := decide (hi > 9) || cy || (decide (hi ≥ 9) && decide (lo > 9))
  let corr := (if low then 0x06 else 0) + (if high then 0x60 else 0)
  let r := BitVec.ofNat 8 (a.toNat + corr)
  { value := r, flags := szp r (decide (lo + corr % 16 > 0xF)) (cy || high) }

/-- The flag byte of PUSH PSW, `psw_byte()` (R28). -/
def pswByte (f : Flags) : Byte :=
  BitVec.ofNat 8 (f.s.toNat * 128 + f.z.toNat * 64 + f.ac.toNat * 16 + f.p.toNat * 4 + 2 + f.cy.toNat)

/-- The flags POP PSW takes from a byte, `set_flags_from(f)` (R28); bits 5, 3 and 1 are ignored. -/
def flagsOfByte (v : Byte) : Flags where
  s := v.getLsbD 7
  z := v.getLsbD 6
  ac := v.getLsbD 4
  p := v.getLsbD 2
  cy := v.getLsbD 0

/-! ### Operations that write ALU results -/

/-- `A <- r; flags <- f`. -/
def State.setA (s : State) (r : AluResult) : State := { s with a := r.value, flags := r.flags }

/-- `F.CY <- cy`. -/
def State.setCy (s : State) (cy : Bool) : State := { s with flags := { s.flags with cy := cy } }

/-- ADD, ADI, ADC, ACI (R130, codes 0 and 1): A plus `b` plus the carry-in `c`. -/
def State.aluAdd (s : State) (b : Byte) (c : Bool) : State := s.setA (add8 s.a b c)

/-- AC after a subtraction, by SUB_AC_RULE (R125); `free` takes a draw. -/
def State.subAc (s : State) (b : Byte) (c : Bool) : Bool :=
  match s.cfg.subAcRule with
  | .intel => acSubIntel s.a b c
  | .free => Config.acDraw s.draws

/-- How many draws have been made after a subtraction: one more under SUB_AC_RULE = free. -/
def State.subDraws (s : State) : Nat :=
  match s.cfg.subAcRule with
  | .intel => s.draws
  | .free => s.draws + 1

/-- The result of `A - b - c` with its flags (R124, R125). -/
def State.subResult (s : State) (b : Byte) (c : Bool) : AluResult := sub8 s.a b c (s.subAc b c)

/-- SUB, SUI, SBB, SBI (R130, codes 2 and 3): A minus `b` minus the borrow-in `c`. -/
def State.aluSub (s : State) (b : Byte) (c : Bool) : State := { s.setA (s.subResult b c) with draws := s.subDraws }

/-- CMP, CPI (R130, code 7): the flags of `A - b`, A unchanged. -/
def State.aluCmp (s : State) (b : Byte) : State :=
  { s with flags := (s.subResult b false).flags, draws := s.subDraws }

/-- ANA, ANI (R130, code 4). -/
def State.aluAnd (s : State) (b : Byte) : State := s.setA (and8 s.a b)

/-- XRA, XRI (R130, code 5). -/
def State.aluXor (s : State) (b : Byte) : State := s.setA (xor8 s.a b)

/-- ORA, ORI (R130, code 6). -/
def State.aluOr (s : State) (b : Byte) : State := s.setA (or8 s.a b)

/-- DAA by DAA_MODE (R189); `either` takes a draw between the two results. -/
def State.aluDaa (s : State) : State :=
  match s.cfg.daaMode with
  | .twoStep => s.setA (daaTwoStep s.a s.flags.ac s.flags.cy)
  | .silicon => s.setA (daaSilicon s.a s.flags.ac s.flags.cy)
  | .either =>
    { s.setA (if Config.daaDraw s.draws then daaSilicon s.a s.flags.ac s.flags.cy
        else daaTwoStep s.a s.flags.ac s.flags.cy) with draws := s.draws + 1 }

end Sys2Proof.Machine
end

