-- ==== Sys2Proof/Machine/Operands.lean ====
section
/-! DEFINITION. The operand forms (00_scope.md R11, 10_state.md R22, R24): the memory operand M, the pairs of LDAX, STAX, PUSH and POP. -/

namespace Sys2Proof.Machine

/-- `HL`, the memory pointer (R24). -/
def State.hl (s : State) : Addr := s.pair .hl

/-- The operand `M` as a source, `rd(6)` of R11: the byte at HL. -/
def State.readM (s : State) : Byte := s.memRead s.hl

/-- The operand `M` as a destination, `wr(6, v)` of R11: a byte write at HL. -/
def State.writeM (s : State) (v : Byte) : State := s.memWrite s.hl v

/-- The pair an LDAX or STAX names, as a pair of R22. -/
def indexPair : IndexPair → Pair
  | .bc => .bc
  | .de => .de

/-- The pair a PUSH rp or POP rp names, as a pair of R22. -/
def stackPair : StackPair → Pair
  | .bc => .bc
  | .de => .de
  | .hl => .hl

end Sys2Proof.Machine
end

