-- ==== Sys2Proof/Machine/Arithmetic.lean ====
section
/-! DEFINITION. The arithmetic instructions (42_arithmetic.md). -/

namespace Sys2Proof.Machine

/-- ADD r (R170). -/
def execAddR (src : Reg) (s : State) : Result := .next ((s.aluAdd (s.reg src) false).retire 1 4)

/-- ADD M (R171). -/
def execAddM (s : State) : Result := .next ((s.aluAdd s.readM false).retire 1 7)

/-- ADI d8 (R172). -/
def execAdi (imm : Byte) (s : State) : Result := .next ((s.aluAdd imm false).retire 2 7)

/-- ADC r (R173). -/
def execAdcR (src : Reg) (s : State) : Result := .next ((s.aluAdd (s.reg src) s.flags.cy).retire 1 4)

/-- ADC M (R174). -/
def execAdcM (s : State) : Result := .next ((s.aluAdd s.readM s.flags.cy).retire 1 7)

/-- ACI d8 (R175). -/
def execAci (imm : Byte) (s : State) : Result := .next ((s.aluAdd imm s.flags.cy).retire 2 7)

/-- SUB r (R176). -/
def execSubR (src : Reg) (s : State) : Result := .next ((s.aluSub (s.reg src) false).retire 1 4)

/-- SUB M (R177). -/
def execSubM (s : State) : Result := .next ((s.aluSub s.readM false).retire 1 7)

/-- SUI d8 (R178). -/
def execSui (imm : Byte) (s : State) : Result := .next ((s.aluSub imm false).retire 2 7)

/-- SBB r (R179). -/
def execSbbR (src : Reg) (s : State) : Result := .next ((s.aluSub (s.reg src) s.flags.cy).retire 1 4)

/-- SBB M (R180). -/
def execSbbM (s : State) : Result := .next ((s.aluSub s.readM s.flags.cy).retire 1 7)

/-- SBI d8 (R181). -/
def execSbi (imm : Byte) (s : State) : Result := .next ((s.aluSub imm s.flags.cy).retire 2 7)

/-- INR r (R182). -/
def execInrR (dst : Reg) (s : State) : Result :=
  let r := inc8 (s.reg dst) s.flags.cy
  .next ({ s.setReg dst r.value with flags := r.flags }.retire 1 5)

/-- INR M (R183): the flags are written even where the write is dropped. -/
def execInrM (s : State) : Result :=
  let r := inc8 s.readM s.flags.cy
  .next ({ s.writeM r.value with flags := r.flags }.retire 1 10)

/-- DCR r (R184). -/
def execDcrR (dst : Reg) (s : State) : Result :=
  let r := dec8 (s.reg dst) s.flags.cy
  .next ({ s.setReg dst r.value with flags := r.flags }.retire 1 5)

/-- DCR M (R185): the flags are written even where the write is dropped. -/
def execDcrM (s : State) : Result :=
  let r := dec8 s.readM s.flags.cy
  .next ({ s.writeM r.value with flags := r.flags }.retire 1 10)

/-- INX rp (R186). -/
def execInx (rp : Pair) (s : State) : Result := .next ((s.setPair rp (s.pair rp + 1)).retire 1 5)

/-- DCX rp (R187). -/
def execDcx (rp : Pair) (s : State) : Result := .next ((s.setPair rp (s.pair rp - 1)).retire 1 5)

/-- DAD rp (R188): CY from the 16-bit sum, the other flags unchanged. -/
def execDad (rp : Pair) (s : State) : Result :=
  .next (((s.setPair .hl (s.hl + s.pair rp)).setCy (carry16 s.hl (s.pair rp))).retire 1 10)

/-- DAA (R189). -/
def execDaa (s : State) : Result := .next (s.aluDaa.retire 1 4)

end Sys2Proof.Machine
end

