-- ==== Sys2Proof/Machine/Branch.lean ====
section
/-! DEFINITION. The branch, call, return and restart instructions (44_branch.md). None writes a flag. -/

namespace Sys2Proof.Machine

/-- JMP a16 (R240). -/
def execJmp (adr : Addr) (s : State) : Result := .next (s.jump adr 10)

/-- Jcc a16 (R241). -/
def execJcc (cc : Cond) (adr : Addr) (s : State) : Result :=
  .next (if condHolds s.flags cc then s.jump adr 10 else s.retire 3 10)

/-- CALL a16 (R242). -/
def execCall (adr : Addr) (s : State) : Result := .next ((s.push16 (s.pc + 3)).jump adr 17)

/-- Ccc a16 (R243). -/
def execCcc (cc : Cond) (adr : Addr) (s : State) : Result :=
  .next (if condHolds s.flags cc then (s.push16 (s.pc + 3)).jump adr 17 else s.retire 3 11)

/-- RET (R244); also the return from an interrupt (R315). -/
def execRet (s : State) : Result := .next (s.dropTop.jump s.top16 10)

/-- Rcc (R245). -/
def execRcc (cc : Cond) (s : State) : Result :=
  .next (if condHolds s.flags cc then s.dropTop.jump s.top16 11 else s.retire 1 5)

/-- RST n (R246). -/
def execRst (n : BitVec 3) (s : State) : Result :=
  .next ((s.push16 (s.pc + 1)).jump (BitVec.ofNat 16 (8 * n.toNat)) 11)

/-- PCHL (R247). -/
def execPchl (s : State) : Result := .next (s.jump (s.pair .hl) 5)

end Sys2Proof.Machine
end

