-- ==== Sys2Proof/Machine/DataTransfer.lean ====
section
/-! DEFINITION. The data transfer instructions (41_data_transfer.md). None writes a flag. -/

namespace Sys2Proof.Machine

/-- MOV r1,r2 (R140). -/
def execMovRR (dst src : Reg) (s : State) : Result := .next ((s.setReg dst (s.reg src)).retire 1 5)

/-- MOV r,M (R141). -/
def execMovRM (dst : Reg) (s : State) : Result := .next ((s.setReg dst s.readM).retire 1 7)

/-- MOV M,r (R142). -/
def execMovMR (src : Reg) (s : State) : Result := .next ((s.writeM (s.reg src)).retire 1 7)

/-- MVI r,d8 (R143). -/
def execMviR (dst : Reg) (imm : Byte) (s : State) : Result := .next ((s.setReg dst imm).retire 2 7)

/-- MVI M,d8 (R144). -/
def execMviM (imm : Byte) (s : State) : Result := .next ((s.writeM imm).retire 2 10)

/-- LXI rp,d16 (R145). -/
def execLxi (rp : Pair) (imm : Addr) (s : State) : Result := .next ((s.setPair rp imm).retire 3 10)

/-- LDA a16 (R146). -/
def execLda (adr : Addr) (s : State) : Result := .next ((s.setReg .a (s.memRead adr)).retire 3 13)

/-- STA a16 (R147). -/
def execSta (adr : Addr) (s : State) : Result := .next ((s.memWrite adr s.a).retire 3 13)

/-- LHLD a16 (R148): L from a16, H from a16 + 1. -/
def execLhld (adr : Addr) (s : State) : Result := .next ((s.setPair .hl (s.memRead16 adr)).retire 3 16)

/-- SHLD a16 (R149): L to a16, then H to a16 + 1. -/
def execShld (adr : Addr) (s : State) : Result := .next ((s.memWrite16 adr s.hl).retire 3 16)

/-- LDAX rp (R150). -/
def execLdax (rp : IndexPair) (s : State) : Result :=
  .next ((s.setReg .a (s.memRead (s.pair (indexPair rp)))).retire 1 7)

/-- STAX rp (R151). -/
def execStax (rp : IndexPair) (s : State) : Result := .next ((s.memWrite (s.pair (indexPair rp)) s.a).retire 1 7)

/-- XCHG (R152). -/
def execXchg (s : State) : Result := .next (((s.setPair .hl (s.pair .de)).setPair .de (s.pair .hl)).retire 1 4)

end Sys2Proof.Machine
end

