-- ==== Sys2Proof/Machine/Logical.lean ====
section
/-! DEFINITION. The logical, compare, rotate and flag instructions (43_logical.md). -/

namespace Sys2Proof.Machine

/-- ANA r (R210). -/
def execAnaR (src : Reg) (s : State) : Result := .next ((s.aluAnd (s.reg src)).retire 1 4)

/-- ANA M (R211). -/
def execAnaM (s : State) : Result := .next ((s.aluAnd s.readM).retire 1 7)

/-- ANI d8 (R212). -/
def execAni (imm : Byte) (s : State) : Result := .next ((s.aluAnd imm).retire 2 7)

/-- XRA r (R213). -/
def execXraR (src : Reg) (s : State) : Result := .next ((s.aluXor (s.reg src)).retire 1 4)

/-- XRA M (R214). -/
def execXraM (s : State) : Result := .next ((s.aluXor s.readM).retire 1 7)

/-- XRI d8 (R215). -/
def execXri (imm : Byte) (s : State) : Result := .next ((s.aluXor imm).retire 2 7)

/-- ORA r (R216). -/
def execOraR (src : Reg) (s : State) : Result := .next ((s.aluOr (s.reg src)).retire 1 4)

/-- ORA M (R217). -/
def execOraM (s : State) : Result := .next ((s.aluOr s.readM).retire 1 7)

/-- ORI d8 (R218). -/
def execOri (imm : Byte) (s : State) : Result := .next ((s.aluOr imm).retire 2 7)

/-- CMP r (R219). -/
def execCmpR (src : Reg) (s : State) : Result := .next ((s.aluCmp (s.reg src)).retire 1 4)

/-- CMP M (R220). -/
def execCmpM (s : State) : Result := .next ((s.aluCmp s.readM).retire 1 7)

/-- CPI d8 (R221). -/
def execCpi (imm : Byte) (s : State) : Result := .next ((s.aluCmp imm).retire 2 7)

/-- RLC (R222). -/
def execRlc (s : State) : Result :=
  .next (({ s with a := (s.a <<< 1) ||| (s.a >>> 7) }.setCy (s.a.getLsbD 7)).retire 1 4)

/-- RRC (R223). -/
def execRrc (s : State) : Result :=
  .next (({ s with a := (s.a >>> 1) ||| (s.a <<< 7) }.setCy (s.a.getLsbD 0)).retire 1 4)

/-- RAL (R224): the old CY enters bit 0. -/
def execRal (s : State) : Result :=
  .next (({ s with a := (s.a <<< 1) ||| BitVec.ofNat 8 s.flags.cy.toNat }.setCy (s.a.getLsbD 7)).retire 1 4)

/-- RAR (R225): the old CY enters bit 7. -/
def execRar (s : State) : Result :=
  .next (({ s with a := (s.a >>> 1) ||| (BitVec.ofNat 8 s.flags.cy.toNat <<< 7) }.setCy (s.a.getLsbD 0)).retire 1 4)

/-- CMA (R226). -/
def execCma (s : State) : Result := .next ({ s with a := s.a ^^^ 0xFF }.retire 1 4)

/-- CMC (R227). -/
def execCmc (s : State) : Result := .next ((s.setCy (!s.flags.cy)).retire 1 4)

/-- STC (R228). -/
def execStc (s : State) : Result := .next ((s.setCy true).retire 1 4)

end Sys2Proof.Machine
end

