-- ==== Sys2Proof/Machine/StackIo.lean ====
section
/-! DEFINITION. The stack, I/O and machine control instructions (45_stack_io_control.md). -/

namespace Sys2Proof.Machine

/-- PUSH rp (R260). -/
def execPushRp (rp : StackPair) (s : State) : Result := .next ((s.push16 (s.pair (stackPair rp))).retire 1 11)

/-- PUSH PSW (R261): A the high byte, the flag byte the low byte. -/
def execPushPsw (s : State) : Result := .next ((s.push16 (joinBytes s.a (pswByte s.flags))).retire 1 11)

/-- POP rp (R262). -/
def execPopRp (rp : StackPair) (s : State) : Result :=
  .next ((s.dropTop.setPair (stackPair rp) s.top16).retire 1 10)

/-- POP PSW (R263). -/
def execPopPsw (s : State) : Result :=
  .next ({ s.dropTop with a := hiByte s.top16, flags := flagsOfByte (loByte s.top16) }.retire 1 10)

/-- XTHL (R264): both bytes are read before either is written. -/
def execXthl (s : State) : Result := .next (((s.memWrite16 s.sp s.hl).setPair .hl s.top16).retire 1 18)

/-- SPHL (R265). -/
def execSphl (s : State) : Result := .next ({ s with sp := s.hl }.retire 1 5)

/-- IN port (R266). -/
def execInp (port : Byte) (s : State) : Result := .next ((s.inputToA port).retire 2 10)

/-- OUT port (R267). -/
def execOut (port : Byte) (s : State) : Result := .next ((s.output port s.a).retire 2 10)

/-- EI (R268): with effect at once. -/
def execEi (s : State) : Result := .next ({ s with inte := true }.retire 1 4)

/-- DI (R269). -/
def execDi (s : State) : Result := .next ({ s with inte := false }.retire 1 4)

/-- HLT (R270): pc moves past it, and the core waits. -/
def execHlt (s : State) : Result := .next ({ s with halted := true }.retire 1 7)

/-- NOP (R271). -/
def execNop (s : State) : Result := .next (s.retire 1 4)

end Sys2Proof.Machine
end

