-- ==== Sys2Proof/Machine/Dispatch.lean ====
section
/-! DEFINITION. The dispatch: one arm for each instruction, a direct call of its meaning. -/

namespace Sys2Proof.Machine

def exec (i : Instr) (s : State) : Host.Outcome State Fault Refusal :=
  match i with
  | .movRR dst src => Sys2Proof.Machine.execMovRR dst src s
  | .movRM dst => Sys2Proof.Machine.execMovRM dst s
  | .movMR src => Sys2Proof.Machine.execMovMR src s
  | .mviR dst imm => Sys2Proof.Machine.execMviR dst imm s
  | .mviM imm => Sys2Proof.Machine.execMviM imm s
  | .lxi rp imm => Sys2Proof.Machine.execLxi rp imm s
  | .lda adr => Sys2Proof.Machine.execLda adr s
  | .sta adr => Sys2Proof.Machine.execSta adr s
  | .lhld adr => Sys2Proof.Machine.execLhld adr s
  | .shld adr => Sys2Proof.Machine.execShld adr s
  | .ldax rp => Sys2Proof.Machine.execLdax rp s
  | .stax rp => Sys2Proof.Machine.execStax rp s
  | .xchg => Sys2Proof.Machine.execXchg s
  | .addR src => Sys2Proof.Machine.execAddR src s
  | .addM => Sys2Proof.Machine.execAddM s
  | .adi imm => Sys2Proof.Machine.execAdi imm s
  | .adcR src => Sys2Proof.Machine.execAdcR src s
  | .adcM => Sys2Proof.Machine.execAdcM s
  | .aci imm => Sys2Proof.Machine.execAci imm s
  | .subR src => Sys2Proof.Machine.execSubR src s
  | .subM => Sys2Proof.Machine.execSubM s
  | .sui imm => Sys2Proof.Machine.execSui imm s
  | .sbbR src => Sys2Proof.Machine.execSbbR src s
  | .sbbM => Sys2Proof.Machine.execSbbM s
  | .sbi imm => Sys2Proof.Machine.execSbi imm s
  | .anaR src => Sys2Proof.Machine.execAnaR src s
  | .anaM => Sys2Proof.Machine.execAnaM s
  | .ani imm => Sys2Proof.Machine.execAni imm s
  | .xraR src => Sys2Proof.Machine.execXraR src s
  | .xraM => Sys2Proof.Machine.execXraM s
  | .xri imm => Sys2Proof.Machine.execXri imm s
  | .oraR src => Sys2Proof.Machine.execOraR src s
  | .oraM => Sys2Proof.Machine.execOraM s
  | .ori imm => Sys2Proof.Machine.execOri imm s
  | .cmpR src => Sys2Proof.Machine.execCmpR src s
  | .cmpM => Sys2Proof.Machine.execCmpM s
  | .cpi imm => Sys2Proof.Machine.execCpi imm s
  | .inrR dst => Sys2Proof.Machine.execInrR dst s
  | .inrM => Sys2Proof.Machine.execInrM s
  | .dcrR dst => Sys2Proof.Machine.execDcrR dst s
  | .dcrM => Sys2Proof.Machine.execDcrM s
  | .inx rp => Sys2Proof.Machine.execInx rp s
  | .dcx rp => Sys2Proof.Machine.execDcx rp s
  | .dad rp => Sys2Proof.Machine.execDad rp s
  | .rlc => Sys2Proof.Machine.execRlc s
  | .rrc => Sys2Proof.Machine.execRrc s
  | .ral => Sys2Proof.Machine.execRal s
  | .rar => Sys2Proof.Machine.execRar s
  | .daa => Sys2Proof.Machine.execDaa s
  | .cma => Sys2Proof.Machine.execCma s
  | .stc => Sys2Proof.Machine.execStc s
  | .cmc => Sys2Proof.Machine.execCmc s
  | .jmp adr => Sys2Proof.Machine.execJmp adr s
  | .jcc cc adr => Sys2Proof.Machine.execJcc cc adr s
  | .call adr => Sys2Proof.Machine.execCall adr s
  | .ccc cc adr => Sys2Proof.Machine.execCcc cc adr s
  | .ret => Sys2Proof.Machine.execRet s
  | .rcc cc => Sys2Proof.Machine.execRcc cc s
  | .rst n => Sys2Proof.Machine.execRst n s
  | .pchl => Sys2Proof.Machine.execPchl s
  | .pushRp rp => Sys2Proof.Machine.execPushRp rp s
  | .pushPsw => Sys2Proof.Machine.execPushPsw s
  | .popRp rp => Sys2Proof.Machine.execPopRp rp s
  | .popPsw => Sys2Proof.Machine.execPopPsw s
  | .xthl => Sys2Proof.Machine.execXthl s
  | .sphl => Sys2Proof.Machine.execSphl s
  | .inp port => Sys2Proof.Machine.execInp port s
  | .out port => Sys2Proof.Machine.execOut port s
  | .ei => Sys2Proof.Machine.execEi s
  | .di => Sys2Proof.Machine.execDi s
  | .hlt => Sys2Proof.Machine.execHlt s
  | .nop => Sys2Proof.Machine.execNop s
  | .nopAlt n => Sys2Proof.Machine.execNopAlt n s
  | .jmpAlt adr => Sys2Proof.Machine.execJmpAlt adr s
  | .retAlt => Sys2Proof.Machine.execRetAlt s
  | .callAlt p adr => Sys2Proof.Machine.execCallAlt p adr s

end Sys2Proof.Machine
end

