-- ==== Sys2Proof/WellFormed.lean ====
section
/-! DEFINITION. The operand values an instruction may carry that its operand types do not already fix. -/

namespace Sys2Proof

/-- The operand ranges of R290 (nnn in 1..7: nnn = 0 is NOP itself) and R293 (pp in 1..3: pp = 0 is CALL itself).
Every other operand has its range in its type. -/
def Instr.wellFormed : Instr → Bool
  | .nopAlt n => n != 0
  | .callAlt p _ => p != 0
  | _ => true

end Sys2Proof
end

