-- ==== Sys2Proof/Decode.lean ====
section
/-! DEFINITION. Decoding and encoding (30_encoding.md): the length of an instruction from its opcode byte, a decoder total on any bytes that rejects by name, and the encoder. -/

namespace Sys2Proof

/-! ### Operand codes -/

/-- The register of a DDD or SSS code (R82); code 6 is the memory byte at HL and names no register. -/
def regOfCode (i : BitVec 3) : Option Reg :=
  match i.toNat with
  | 0 => some .b
  | 1 => some .c
  | 2 => some .d
  | 3 => some .e
  | 4 => some .h
  | 5 => some .l
  | 6 => none
  | _ => some .a

/-- The code of a register (R82). -/
def codeOfReg : Reg → BitVec 3
  | .b => 0
  | .c => 1
  | .d => 2
  | .e => 3
  | .h => 4
  | .l => 5
  | .a => 7

/-- The register pair of an RP code in LXI, INX, DCX and DAD (R22). -/
def pairOfCode (p : BitVec 2) : Pair :=
  match p.toNat with
  | 0 => .bc
  | 1 => .de
  | 2 => .hl
  | _ => .sp

/-- The code of a register pair (R22). -/
def codeOfPair : Pair → BitVec 2
  | .bc => 0
  | .de => 1
  | .hl => 2
  | .sp => 3

/-- The register pair of an RP code in PUSH and POP; code 3 is PSW (R22). -/
def stackPairOfCode (p : BitVec 2) : Option StackPair :=
  match p.toNat with
  | 0 => some .bc
  | 1 => some .de
  | 2 => some .hl
  | _ => none

/-- The code of a PUSH or POP register pair (R22). -/
def codeOfStackPair : StackPair → BitVec 2
  | .bc => 0
  | .de => 1
  | .hl => 2

/-- The code of an LDAX or STAX register pair, opcode bit 4 (R150, R151). -/
def codeOfIndexPair : IndexPair → BitVec 1
  | .bc => 0
  | .de => 1

/-- The condition of a CCC code (R87). -/
def condOfCode (i : BitVec 3) : Cond :=
  match i.toNat with
  | 0 => .nz
  | 1 => .z
  | 2 => .nc
  | 3 => .c
  | 4 => .po
  | 5 => .pe
  | 6 => .p
  | _ => .m

/-- The code of a condition (R87). -/
def codeOfCond : Cond → BitVec 3
  | .nz => 0
  | .z => 1
  | .nc => 2
  | .c => 3
  | .po => 4
  | .pe => 5
  | .p => 6
  | .m => 7

/-! ### Length (R83) -/

/-- The 18 opcodes of two-byte instructions, as R83 lists them. -/
def twoByteOpcodes : List Byte :=
  [0x06, 0x0E, 0x16, 0x1E, 0x26, 0x2E, 0x36, 0x3E, 0xC6, 0xCE, 0xD6, 0xDE, 0xE6, 0xEE, 0xF6, 0xFE, 0xD3, 0xDB]

/-- The 30 opcodes of three-byte instructions, as R83 lists them. -/
def threeByteOpcodes : List Byte :=
  [0x01, 0x11, 0x21, 0x31, 0x22, 0x2A, 0x32, 0x3A, 0xC3, 0xCB]
    ++ [0xC2, 0xCA, 0xD2, 0xDA, 0xE2, 0xEA, 0xF2, 0xFA, 0xCD, 0xDD, 0xED, 0xFD]
    ++ [0xC4, 0xCC, 0xD4, 0xDC, 0xE4, 0xEC, 0xF4, 0xFC]

/-- The length in bytes of the instruction with opcode byte `op` (R83). -/
def opcodeLength (op : Byte) : Nat :=
  if twoByteOpcodes.contains op then 2 else if threeByteOpcodes.contains op then 3 else 1

/-! ### The opcode map (R81, R89), by class, with operand bytes `b2` and `b3` -/

/-- The accumulator operations on a register or M, class 10 (`10aaasss`, R88). -/
def decodeAlu (aaa : BitVec 3) : Option Reg → Instr
  | some r =>
    match aaa.toNat with
    | 0 => .addR r
    | 1 => .adcR r
    | 2 => .subR r
    | 3 => .sbbR r
    | 4 => .anaR r
    | 5 => .xraR r
    | 6 => .oraR r
    | _ => .cmpR r
  | none =>
    match aaa.toNat with
    | 0 => .addM
    | 1 => .adcM
    | 2 => .subM
    | 3 => .sbbM
    | 4 => .anaM
    | 5 => .xraM
    | 6 => .oraM
    | _ => .cmpM

/-- The accumulator operations on an immediate byte (`11aaa110`, R88). -/
def decodeAluImm (aaa : BitVec 3) (d8 : Byte) : Instr :=
  match aaa.toNat with
  | 0 => .adi d8
  | 1 => .aci d8
  | 2 => .sui d8
  | 3 => .sbi d8
  | 4 => .ani d8
  | 5 => .xri d8
  | 6 => .ori d8
  | _ => .cpi d8

/-- The class 01: MOV, with HLT in the place of MOV M,M (R140 to R142, R270). -/
def decodeMove : Option Reg → Option Reg → Instr
  | some dst, some src => .movRR dst src
  | some dst, none => .movRM dst
  | none, some src => .movMR src
  | none, none => .hlt

/-- The column `00yyy010`: the direct and indirect loads and stores (R81). -/
def decodeDirect (y : BitVec 3) (a16 : Addr) : Instr :=
  match y.toNat with
  | 0 => .stax .bc
  | 1 => .ldax .bc
  | 2 => .stax .de
  | 3 => .ldax .de
  | 4 => .shld a16
  | 5 => .lhld a16
  | 6 => .sta a16
  | _ => .lda a16

/-- The column `00yyy111`: rotates, DAA, CMA, STC, CMC (R81). -/
def decodeRotate (y : BitVec 3) : Instr :=
  match y.toNat with
  | 0 => .rlc
  | 1 => .rrc
  | 2 => .ral
  | 3 => .rar
  | 4 => .daa
  | 5 => .cma
  | 6 => .stc
  | _ => .cmc

/-- The class 00 (R81). -/
def decodeClass0 (op b2 b3 : Byte) : Instr :=
  let y := field53 op
  match (field20 op).toNat with
  | 0 => if y = 0 then .nop else .nopAlt y
  | 1 => if op.getLsbD 3 then .dad (pairOfCode (field54 op)) else .lxi (pairOfCode (field54 op)) (joinBytes b3 b2)
  | 2 => decodeDirect y (joinBytes b3 b2)
  | 3 => if op.getLsbD 3 then .dcx (pairOfCode (field54 op)) else .inx (pairOfCode (field54 op))
  | 4 => match regOfCode y with
    | some r => .inrR r
    | none => .inrM
  | 5 => match regOfCode y with
    | some r => .dcrR r
    | none => .dcrM
  | 6 => match regOfCode y with
    | some r => .mviR r b2
    | none => .mviM b2
  | _ => decodeRotate y

/-- The column `11yyy001`: POP, RET and its alternate, PCHL, SPHL (R81). -/
def decodePop (op : Byte) : Instr :=
  if op.getLsbD 3 then
    match (field54 op).toNat with
    | 0 => .ret
    | 1 => .retAlt
    | 2 => .pchl
    | _ => .sphl
  else
    match stackPairOfCode (field54 op) with
    | some p => .popRp p
    | none => .popPsw

/-- The column `11yyy011`: JMP and its alternate, OUT, IN, XTHL, XCHG, DI, EI (R81). -/
def decodeMisc (y : BitVec 3) (b2 : Byte) (a16 : Addr) : Instr :=
  match y.toNat with
  | 0 => .jmp a16
  | 1 => .jmpAlt a16
  | 2 => .out b2
  | 3 => .inp b2
  | 4 => .xthl
  | 5 => .xchg
  | 6 => .di
  | _ => .ei

/-- The column `11yyy101`: PUSH, CALL and its alternates (R81). -/
def decodePush (op : Byte) (a16 : Addr) : Instr :=
  if op.getLsbD 3 then
    if field54 op = 0 then .call a16 else .callAlt (field54 op) a16
  else
    match stackPairOfCode (field54 op) with
    | some p => .pushRp p
    | none => .pushPsw

/-- The class 11 (R81). -/
def decodeClass3 (op b2 b3 : Byte) : Instr :=
  let y := field53 op
  match (field20 op).toNat with
  | 0 => .rcc (condOfCode y)
  | 1 => decodePop op
  | 2 => .jcc (condOfCode y) (joinBytes b3 b2)
  | 3 => decodeMisc y b2 (joinBytes b3 b2)
  | 4 => .ccc (condOfCode y) (joinBytes b3 b2)
  | 5 => decodePush op (joinBytes b3 b2)
  | 6 => decodeAluImm y b2
  | _ => .rst y

/-- The row of the opcode map (R89) for the opcode byte `op`, its operands taken from bytes 2 and 3 as the form needs
them; `none` would be a decoding gap (R300), which no byte has (R91). -/
def decodeOpcode (op b2 b3 : Byte) : Option Instr :=
  match (field76 op).toNat with
  | 0 => some (decodeClass0 op b2 b3)
  | 1 => some (decodeMove (regOfCode (field53 op)) (regOfCode (field20 op)))
  | 2 => some (decodeAlu (field53 op) (regOfCode (field20 op)))
  | 3 => some (decodeClass3 op b2 b3)
  | _ => none

/-- Why a byte list holds no instruction. -/
inductive DecodeError where
  /-- No opcode byte. -/
  | noBytes
  /-- Fewer bytes than the opcode's length (R83). -/
  | truncated (op : Byte)
  /-- An opcode byte with no row (R300): none exists (R91). -/
  | gap (op : Byte)
deriving DecidableEq, Repr

/-- The row of an opcode byte with the operand bytes its length has (a byte it does not have reads as 0 and no row of that
length uses it), and the bytes after the instruction. -/
def decodeRow (op b2 b3 : Byte) (rest : List Byte) : Except DecodeError (Instr × List Byte) :=
  match decodeOpcode op b2 b3 with
  | some i => .ok (i, rest)
  | none => .error (.gap op)

/-- Decode one instruction from the front of a byte list, and give the bytes after it. -/
def decode : List Byte → Except DecodeError (Instr × List Byte)
  | [] => .error .noBytes
  | op :: rest =>
    match opcodeLength op, rest with
    | 1, rest => decodeRow op 0 0 rest
    | 2, b2 :: rest => decodeRow op b2 0 rest
    | 3, b2 :: b3 :: rest => decodeRow op b2 b3 rest
    | _, _ => .error (.truncated op)

/-! ### The encoder, from the encoding patterns of the rules (R81 and files 41 to 46) -/

/-- Format F3 (R80): the opcode, then the 16-bit operand low byte first (R85). -/
def encodeF3 (op : Byte) (v : Addr) : List Byte := [op, loByte v, hiByte v]

/-- `xxdddyyy`: two class bits, the field 5:3, the field 2:0. -/
def opFields (cls : BitVec 2) (mid lo : BitVec 3) : Byte := cls ++ mid ++ lo

/-- `xxppyyyy`: two class bits, the RP field, the low four bits. -/
def opPair (cls rp : BitVec 2) (lo : BitVec 4) : Byte := cls ++ rp ++ lo

/-- The bytes of an instruction, opcode first. -/
def encode : Instr → List Byte
  | .movRR dst src => [opFields 0b01 (codeOfReg dst) (codeOfReg src)]
  | .movRM dst => [opFields 0b01 (codeOfReg dst) 0b110]
  | .movMR src => [opFields 0b01 0b110 (codeOfReg src)]
  | .mviR dst v => [opFields 0b00 (codeOfReg dst) 0b110, v]
  | .mviM v => [0b00110110, v]
  | .lxi p v => encodeF3 (opPair 0b00 (codeOfPair p) 0b0001) v
  | .lda v => encodeF3 0b00111010 v
  | .sta v => encodeF3 0b00110010 v
  | .lhld v => encodeF3 0b00101010 v
  | .shld v => encodeF3 0b00100010 v
  | .ldax p => [(0b000#3 ++ codeOfIndexPair p ++ 0b1010#4 : BitVec 8)]
  | .stax p => [(0b000#3 ++ codeOfIndexPair p ++ 0b0010#4 : BitVec 8)]
  | .xchg => [0b11101011]
  | .addR src => [opFields 0b10 0b000 (codeOfReg src)]
  | .addM => [0b10000110]
  | .adi v => [0b11000110, v]
  | .adcR src => [opFields 0b10 0b001 (codeOfReg src)]
  | .adcM => [0b10001110]
  | .aci v => [0b11001110, v]
  | .subR src => [opFields 0b10 0b010 (codeOfReg src)]
  | .subM => [0b10010110]
  | .sui v => [0b11010110, v]
  | .sbbR src => [opFields 0b10 0b011 (codeOfReg src)]
  | .sbbM => [0b10011110]
  | .sbi v => [0b11011110, v]
  | .anaR src => [opFields 0b10 0b100 (codeOfReg src)]
  | .anaM => [0b10100110]
  | .ani v => [0b11100110, v]
  | .xraR src => [opFields 0b10 0b101 (codeOfReg src)]
  | .xraM => [0b10101110]
  | .xri v => [0b11101110, v]
  | .oraR src => [opFields 0b10 0b110 (codeOfReg src)]
  | .oraM => [0b10110110]
  | .ori v => [0b11110110, v]
  | .cmpR src => [opFields 0b10 0b111 (codeOfReg src)]
  | .cmpM => [0b10111110]
  | .cpi v => [0b11111110, v]
  | .inrR dst => [opFields 0b00 (codeOfReg dst) 0b100]
  | .inrM => [0b00110100]
  | .dcrR dst => [opFields 0b00 (codeOfReg dst) 0b101]
  | .dcrM => [0b00110101]
  | .inx p => [opPair 0b00 (codeOfPair p) 0b0011]
  | .dcx p => [opPair 0b00 (codeOfPair p) 0b1011]
  | .dad p => [opPair 0b00 (codeOfPair p) 0b1001]
  | .rlc => [0b00000111]
  | .rrc => [0b00001111]
  | .ral => [0b00010111]
  | .rar => [0b00011111]
  | .daa => [0b00100111]
  | .cma => [0b00101111]
  | .stc => [0b00110111]
  | .cmc => [0b00111111]
  | .jmp v => encodeF3 0b11000011 v
  | .jcc cc v => encodeF3 (opFields 0b11 (codeOfCond cc) 0b010) v
  | .call v => encodeF3 0b11001101 v
  | .ccc cc v => encodeF3 (opFields 0b11 (codeOfCond cc) 0b100) v
  | .ret => [0b11001001]
  | .rcc cc => [opFields 0b11 (codeOfCond cc) 0b000]
  | .rst n => [opFields 0b11 n 0b111]
  | .pchl => [0b11101001]
  | .pushRp p => [opPair 0b11 (codeOfStackPair p) 0b0101]
  | .pushPsw => [0b11110101]
  | .popRp p => [opPair 0b11 (codeOfStackPair p) 0b0001]
  | .popPsw => [0b11110001]
  | .xthl => [0b11100011]
  | .sphl => [0b11111001]
  | .inp v => [0b11011011, v]
  | .out v => [0b11010011, v]
  | .ei => [0b11111011]
  | .di => [0b11110011]
  | .hlt => [0b01110110]
  | .nop => [0b00000000]
  | .nopAlt n => [opFields 0b00 n 0b000]
  | .jmpAlt v => encodeF3 0b11001011 v
  | .retAlt => [0b11011001]
  | .callAlt p v => encodeF3 (opPair 0b11 p 0b1101) v

/-! ### The table's numbering of bits -/

/-- The three bytes of an instruction whose bits are `w`, numbered as spec/opcode_table.json numbers them (bit 0 the
least significant bit of the first byte); the bits above `nbits` are 0. No instruction is longer than three bytes. -/
def tableBytes (nbits w : Nat) : List Byte :=
  let v := w % 2 ^ nbits
  [BitVec.ofNat 8 v, BitVec.ofNat 8 (v / 2 ^ 8), BitVec.ofNat 8 (v / 2 ^ 16)]

/-- The instruction the decoder reads from the table's word `w` of `nbits` bits. -/
def decodeTableWord (nbits w : Nat) : Option Instr :=
  match decode (tableBytes nbits w) with
  | .ok (i, _) => some i
  | .error _ => none

end Sys2Proof
end

