-- ==== Sys2Proof/Machine/Fetch.lean ====
section
/-! DEFINITION. Fetching an instruction's bytes (30_encoding.md R86, R100), and placing bytes where the next fetch reads them. -/

namespace Sys2Proof.Machine

/-- `n` bytes from address `a` on, each address mod 2^16 (R86). -/
def State.bytesFrom (s : State) (a : Addr) : Nat → List Byte
  | 0 => []
  | n + 1 => s.memRead a :: s.bytesFrom (a + 1) n

/-- The bytes of the instruction at pc: the opcode byte, and as many operand bytes as its length requires (R100). -/
def State.fetch (s : State) : List Byte := s.bytesFrom s.pc (opcodeLength (s.memRead s.pc))

/-- The bytes `bs` in the cells a fetch reads from address `a` on, by `load` (R56). -/
def State.placeBytes (s : State) (a : Addr) : List Byte → State
  | [] => s
  | v :: bs => (s.load (readCell s.cfg a) v).placeBytes (a + 1) bs

/-- The state an instruction starts in: its own list of signals, empty (R104). -/
def State.beginStep (s : State) : State := { s with diags := [] }

end Sys2Proof.Machine
end

