-- ==== Sys2Proof/Machine/Step.lean ====
section
/-! DEFINITION. One step of the machine (30_encoding.md R100). -/

namespace Sys2Proof.Machine

/-- One step (R100): while halted nothing happens (R108); otherwise the instruction at pc is fetched, decoded and run. A
byte list the decoder rejects is the decoding gap of R300, which no byte causes (R91). The outcomes of R104 read so:
`next` from a state with `halted` set is Halted; `next` from any other state is Ok, with the cost in `cycles` and the signals in
`diags`; `fault` is Fault (log entry 6). -/
def step (s : State) : Result :=
  if s.halted then .next s
  else
    match decode s.fetch with
    | .ok (i, _) => exec i s.beginStep
    | .error _ => .fault (.decodeGap (s.memRead s.pc))

/-- `s` with the instruction of the table's word `w` of `nbits` bits stored where `step` fetches its next instruction, and
with the halted state cleared, which a fetch needs (log entry 8). -/
def State.withFetchWord (s : State) (nbits w : Nat) : State :=
  { (s.placeBytes s.pc (tableBytes nbits w)) with halted := false }

end Sys2Proof.Machine
end

