-- ==== Sys2Proof/Machine/Batch.lean ====
section
/-! DEFINITION. The cycle-budget dispatcher (30_encoding.md R110 to R112). -/

namespace Sys2Proof.Machine

/-- The status a batch returns (R110). -/
inductive BatchStatus where
  | done
  | halted
  | faulted (f : Fault)
  /-- The model's own: an instruction without a meaning, which `exec` has none of. -/
  | refused (r : Refusal)
deriving DecidableEq, Repr

/-- What a batch returns: the accumulated total, the status, the signals raised, oldest first, and the state it leaves. -/
structure BatchResult where
  total : Nat
  status : BatchStatus
  diags : List RomWriteDropped
  state : State
deriving DecidableEq, Repr

/-- The loop of `batch(N)` (R110) from a total and the signals so far. `fuel` bounds the turns: every instruction costs at
least one cycle, so `n - total` turns are enough. -/
def batchLoop (n : Nat) : Nat → Nat → List RomWriteDropped → State → BatchResult
  | 0, total, ds, s => { total, status := .done, diags := ds, state := s }
  | fuel + 1, total, ds, s =>
    if total < n then
      if s.halted then { total, status := .halted, diags := ds, state := s }
      else
        match step s with
        | .next t => batchLoop n fuel (total + t.cycles) (ds ++ t.diags) t
        | .fault f => { total, status := .faulted f, diags := ds, state := s }
        | .refused r => { total, status := .refused r, diags := ds, state := s }
    else { total, status := .done, diags := ds, state := s }

/-- `batch(N)` (R110): whole instructions until the total is at least N. Nothing is carried from one batch to the next
(R112). -/
def batch (n : Nat) (s : State) : BatchResult := batchLoop n n 0 [] s

end Sys2Proof.Machine
end

