-- ==== Sys2Proof/Machine/Board.lean ====
section
/-! DEFINITION. The host interface (60_exceptions.md R330 to R332): the launch with its arguments, and every action the host may take between batches. -/

namespace Sys2Proof.Machine

/-- The bytes `vs` loaded into consecutive cells from `k` on (R56). -/
def State.loadFrom (s : State) (k : Nat) : List Byte → State
  | [] => s
  | v :: vs => (s.load k v).loadFrom (k + 1) vs

/-- ROM load (R57, R331): four banks of 0x800 bytes each, in order from address 0; `none` when the load fails, and then
the core never starts. -/
def State.loadRom (s : State) (banks : List (List Byte)) : Option State :=
  if banks.length = 4 ∧ banks.all (fun bank => bank.length == 0x800) then some (s.loadFrom 0 banks.flatten) else none

/-- The arguments of a launch (R8). -/
structure Launch where
  /-- The parameters that stay fixed during the run. -/
  cfg : Config
  /-- ROM_IMAGE, as its four banks (R57). -/
  romBanks : List (List Byte)
  /-- INIT_MEM: the start values of the cells from 0x2000 on, in order; cells after its end hold `Memory.unlisted`. -/
  initMem : List Byte
  /-- INIT_DIP1, INIT_DIP2 (R321). -/
  dip1 : Byte
  dip2 : Byte
  /-- INIT_SHIFT, INIT_OFFSET (R324). -/
  shift : BitVec 16
  offset : BitVec 3
deriving DecidableEq, Repr

/-- The state a launch starts in (R340, R341, R343): the core at its reset values, memory and devices at the launch
arguments; `none` when the ROM load fails. At most 0xE000 bytes of `initMem` are used, the cells [0x2000, 0xFFFF]. -/
def launch (p : Launch) : Option State :=
  ({ State.reset with cfg := p.cfg, dip1 := p.dip1, dip2 := p.dip2, shift := p.shift, offset := p.offset }.loadFrom
    0x2000 (p.initMem.take 0xE000)).loadRom p.romBanks

/-- The two vectors the host passes (R310); which one when is the host's policy. -/
inductive Vector where
  | a | b
deriving DecidableEq, Repr

/-- The address of a vector: VEC_A or VEC_B (R310). -/
def State.vector (s : State) : Vector → Addr
  | .a => s.cfg.vecA
  | .b => s.cfg.vecB

/-- The host sets the DIP-switch registers (R321). -/
def State.setDips (s : State) (v1 v2 : Byte) : State := { s with dip1 := v1, dip2 := v2 }

/-- `n` cells from cell `k` on. -/
def State.cellsFrom (s : State) (k : Nat) : Nat → List Byte
  | 0 => []
  | n + 1 => s.mem.read k :: s.cellsFrom (k + 1) n

/-- The bytes of [0x2400, 0x4000), as the renderer reads them (R59). -/
def State.framebuffer (s : State) : List Byte := s.cellsFrom 0x2400 0x1C00

/-- What the host may do between batches, one action at a time (R330). To stop is to take no further action (R332). -/
inductive HostAction where
  | batch (n : Nat)
  | interrupt (v : Vector)
  | setDips (v1 v2 : Byte)
  | readFramebuffer
deriving DecidableEq, Repr

/-- What the host gets back (R330). -/
inductive HostReply where
  | batch (total : Nat) (status : BatchStatus) (diags : List RomWriteDropped)
  | accepted (diags : List RomWriteDropped)
  | notAccepted
  | none
  | bytes (vs : List Byte)
deriving DecidableEq, Repr

/-- One host action (R330). -/
def hostAct (act : HostAction) (s : State) : HostReply × State :=
  match act with
  | .batch n =>
    let r := Sys2Proof.Machine.batch n s
    (.batch r.total r.status r.diags, r.state)
  | .interrupt v =>
    match Sys2Proof.Machine.interrupt (s.vector v) s with
    | .accepted t => (.accepted t.diags, t)
    | .notAccepted => (.notAccepted, s)
  | .setDips v1 v2 => (.none, s.setDips v1 v2)
  | .readFramebuffer => (.bytes s.framebuffer, s)

end Sys2Proof.Machine
end

