-- ==== Sys2Proof/Safety.lean ====
section
/-! DEFINITION. The terms claims are stated in: the invariant of a state, what it is to leave memory alone or to store bytes, the flags of a result, and the spec's tables of who writes what. -/

namespace Sys2Proof.Machine

/-- The invariant every step keeps: memory is in its canonical form. -/
def State.Inv (s : State) : Prop := s.mem.wf = true

/-- The instructions `is` run one after another from `s`, each at the pc the one before it left. -/
def execSeq : List Instr → State → Result
  | [], s => .next s
  | i :: is, s =>
    match exec i s with
    | .next t => execSeq is t
    | .fault f => .fault f
    | .refused r => .refused r

/-- From `s` the states `ts` are reached one after another, each by a step of a core that is not halted (R100). -/
def StepsThrough : State → List State → Prop
  | _, [] => True
  | s, t :: ts => s.halted = false ∧ step s = .next t ∧ StepsThrough t ts

/-- The costs that the states `ts` report, added up (R106, R110). -/
def totalCost (ts : List State) : Nat := (ts.map State.cycles).sum

/-! ### Memory -/

/-- Every address reads in `t` as in `s`. -/
def SameMemory (s t : State) : Prop := ∀ x : Addr, t.memRead x = s.memRead x

/-- The signals of the byte writes `ws`, in order: those presented in the ROM zone (R302). -/
def droppedWrites (ws : List (Addr × Byte)) : List RomWriteDropped :=
  (ws.filter fun w => decide (w.1.toNat < 0x2000)).map fun w => { addr := w.1, value := w.2 }

/-- From `s` to `t` exactly the byte writes `ws` were presented to the memory port (R53, R302): those below 0x2000 are
dropped and signalled, the others are in the cells they are redirected to, and every address that reads none of these
cells reads as before. -/
def Stores (s t : State) (ws : List (Addr × Byte)) : Prop :=
  t.diags = s.diags ++ droppedWrites ws ∧
  (s.Inv →
    (∀ w ∈ ws, 0x2000 ≤ w.1.toNat → t.mem.read (redirect w.1.toNat) = w.2) ∧
    ∀ x : Addr, (∀ w ∈ ws, storeCell w.1 ≠ some (readCell s.cfg x)) → t.memRead x = s.memRead x)

/-! ### Flags and pc -/

/-- The number of 1 bits of a byte. -/
def ones (v : Byte) : Nat := (List.range 8).countP v.getLsbD

/-- S, Z and P are those of the result `r` (R120, R122). -/
def SignZeroParity (f : Flags) (r : Byte) : Prop :=
  (f.s = true ↔ 0x80 ≤ r.toNat) ∧ (f.z = true ↔ r.toNat = 0) ∧ (f.p = true ↔ ones r % 2 = 0)

/-- pc moved past an instruction of `len` bytes, mod 2^16 (R103), and `cost` cycles were reported (R106). -/
def Retires (s t : State) (len cost : Nat) : Prop :=
  t.pc.toNat = (s.pc.toNat + len) % 0x10000 ∧ t.cycles = cost

/-! ### The spec's tables -/

/-- The instructions that write S, Z, P and AC (R29). -/
def writesSzpAc : Instr → Bool
  | .addR _ | .addM | .adi _ | .adcR _ | .adcM | .aci _ | .subR _ | .subM | .sui _ | .sbbR _ | .sbbM | .sbi _ => true
  | .anaR _ | .anaM | .ani _ | .xraR _ | .xraM | .xri _ | .oraR _ | .oraM | .ori _ | .cmpR _ | .cmpM | .cpi _ => true
  | .inrR _ | .inrM | .dcrR _ | .dcrM | .daa | .popPsw => true
  | _ => false

/-- The instructions that write CY (R29). -/
def writesCy : Instr → Bool
  | .addR _ | .addM | .adi _ | .adcR _ | .adcM | .aci _ | .subR _ | .subM | .sui _ | .sbbR _ | .sbbM | .sbi _ => true
  | .anaR _ | .anaM | .ani _ | .xraR _ | .xraM | .xri _ | .oraR _ | .oraM | .ori _ | .cmpR _ | .cmpM | .cpi _ => true
  | .dad _ | .daa | .rlc | .rrc | .ral | .rar | .stc | .cmc | .popPsw => true
  | _ => false

/-- The instructions that write sp (R26). -/
def writesSp : Instr → Bool
  | .lxi .sp _ | .inx .sp | .dcx .sp | .sphl | .pushRp _ | .pushPsw | .popRp _ | .popPsw => true
  | .call _ | .callAlt _ _ | .ccc _ _ | .ret | .retAlt | .rcc _ | .rst _ => true
  | _ => false

/-- The instructions that present byte writes to the memory port (R64, R302). -/
def writesMemory : Instr → Bool
  | .movMR _ | .mviM _ | .inrM | .dcrM | .sta _ | .stax _ | .shld _ | .pushRp _ | .pushPsw => true
  | .call _ | .callAlt _ _ | .ccc _ _ | .rst _ | .xthl => true
  | _ => false

/-- The cycle table of R350, row by row; the flags decide the cost of a conditional call or return. -/
def cycleTable (i : Instr) (f : Flags) : Nat :=
  match i with
  | .nop | .nopAlt _ | .rlc | .rrc | .ral | .rar | .daa | .cma | .stc | .cmc | .xchg | .ei | .di => 4
  | .addR _ | .adcR _ | .subR _ | .sbbR _ | .anaR _ | .xraR _ | .oraR _ | .cmpR _ => 4
  | .movRR _ _ | .inrR _ | .dcrR _ | .inx _ | .dcx _ | .sphl | .pchl => 5
  | .movRM _ | .movMR _ | .mviR _ _ | .ldax _ | .stax _ | .hlt => 7
  | .addM | .adcM | .subM | .sbbM | .anaM | .xraM | .oraM | .cmpM => 7
  | .adi _ | .aci _ | .sui _ | .sbi _ | .ani _ | .xri _ | .ori _ | .cpi _ => 7
  | .mviM _ | .lxi _ _ | .inrM | .dcrM | .dad _ | .jmp _ | .jmpAlt _ | .jcc _ _ => 10
  | .ret | .retAlt | .popRp _ | .popPsw | .inp _ | .out _ => 10
  | .pushRp _ | .pushPsw | .rst _ => 11
  | .lda _ | .sta _ => 13
  | .lhld _ | .shld _ => 16
  | .call _ | .callAlt _ _ => 17
  | .xthl => 18
  | .ccc cc _ => if condHolds f cc then 17 else 11
  | .rcc cc => if condHolds f cc then 11 else 5

end Sys2Proof.Machine
end

