-- ==== Sys2Proof/Certificates/Slice0/Obligations.lean ====
section
/-! DEFINITION. The statements about the model, for the provers. Each docstring names the rules of spec/ it formalises, and the spec's decisions and the model's log entries it rests on. That the
cost and the signals of a step stand in State, and that the rules' parameters do, is the model's (log entries 5 and 3). -/

open Sys2Proof Sys2Proof.Machine

/-! ### Reset -/

/-- R34 and R340: right after reset every field of the core state is zero. The row for `halted` is the spec's own decision
D31. Memory, devices and parameters are launch arguments, and nothing is said of them. -/
def Obligations.ResetCoreStateIsZero : Prop :=
  (∀ r : Reg, State.reset.reg r = 0) ∧ State.reset.slot6 = 0 ∧ State.reset.pc = 0 ∧ State.reset.sp = 0 ∧
    State.reset.flags = ⟨false, false, false, false, false⟩ ∧ State.reset.inte = false ∧ State.reset.halted = false

/-- The invariant holds right after reset (R51; the list form is the model's, log entry 1). -/
def Obligations.ResetMemoryIsCanonical : Prop := State.reset.Inv

/-! ### Encoding -/

/-- Decoding the encoding of a well-formed instruction gives it back, every operand at every value, with whatever bytes
follow left over (30_encoding.md sections 1 to 3). -/
def Obligations.DecodeOfEncodeIsIdentity : Prop :=
  ∀ (i : Instr) (rest : List Byte), i.wellFormed = true → decode (encode i ++ rest) = .ok (i, rest)

/-- What decodes is well-formed and its encoding is the bytes it was decoded from: every word has one meaning (R91). -/
def Obligations.EncodeOfDecodeIsIdentity : Prop :=
  ∀ (bs rest : List Byte) (i : Instr), decode bs = .ok (i, rest) → i.wellFormed = true ∧ bs = encode i ++ rest

/-- R83 and R91: all 256 opcode bytes decode, and the opcode byte alone decides how many bytes the instruction takes: two
for R83's 18 opcodes, three for its 30, one for every other. -/
def Obligations.EveryOpcodeDecodesAtItsLength : Prop :=
  ∀ (op b2 b3 : Byte) (rest : List Byte), ∃ i : Instr,
    decode (op :: b2 :: b3 :: rest) = .ok (i,
      if op.toNat ∈ [0x06, 0x0E, 0x16, 0x1E, 0x26, 0x2E, 0x36, 0x3E, 0xC6, 0xCE, 0xD6, 0xDE, 0xE6, 0xEE, 0xF6, 0xFE, 0xD3, 0xDB]
      then b3 :: rest
      else if op.toNat ∈ [0x01, 0x11, 0x21, 0x31, 0x22, 0x2A, 0x32, 0x3A, 0xC3, 0xCB, 0xC2, 0xCA, 0xD2, 0xDA, 0xE2, 0xEA,
        0xF2, 0xFA, 0xCD, 0xDD, 0xED, 0xFD, 0xC4, 0xCC, 0xD4, 0xDC, 0xE4, 0xEC, 0xF4, 0xFC]
      then rest
      else b2 :: b3 :: rest)

/-- The codes of the registers in DDD and SSS fields (R82). -/
def RegisterCodes : Prop :=
  codeOfReg .b = 0 ∧ codeOfReg .c = 1 ∧ codeOfReg .d = 2 ∧ codeOfReg .e = 3 ∧ codeOfReg .h = 4 ∧ codeOfReg .l = 5 ∧
    codeOfReg .a = 7

/-- The codes of the register pairs of LXI, INX, DCX and DAD (R22). -/
def PairCodes : Prop := codeOfPair .bc = 0 ∧ codeOfPair .de = 1 ∧ codeOfPair .hl = 2 ∧ codeOfPair .sp = 3

/-- The codes of the register pairs of PUSH rp and POP rp (R22). -/
def StackPairCodes : Prop := codeOfStackPair .bc = 0 ∧ codeOfStackPair .de = 1 ∧ codeOfStackPair .hl = 2

/-- The codes of the conditions (R87). -/
def ConditionCodes : Prop :=
  codeOfCond .nz = 0 ∧ codeOfCond .z = 1 ∧ codeOfCond .nc = 2 ∧ codeOfCond .c = 3 ∧ codeOfCond .po = 4 ∧
    codeOfCond .pe = 5 ∧ codeOfCond .p = 6 ∧ codeOfCond .m = 7

/-- The operand codes of R82, R22 and R87, and words of every family, written out from their rules' encodings, that decode
to the instructions they stand for. That the twelve undocumented bytes have a meaning is the spec's decision D9. -/
def Obligations.SampleWordsDecode : Prop :=
  RegisterCodes ∧ PairCodes ∧ StackPairCodes ∧ ConditionCodes ∧
  decode [0b01000001] = .ok (.movRR .b .c, []) ∧ decode [0x21, 0x34, 0x12] = .ok (.lxi .hl 0x1234, []) ∧
    decode [0b10001001] = .ok (.adcR .c, []) ∧ decode [0xC6, 0xFB] = .ok (.adi 0xFB, []) ∧
    decode [0b10111110] = .ok (.cmpM, []) ∧ decode [0b00011111] = .ok (.rar, []) ∧
    decode [0xCA, 0x34, 0x12] = .ok (.jcc .z 0x1234, []) ∧ decode [0b11001111] = .ok (.rst 1, []) ∧
    decode [0b11110001] = .ok (.popPsw, []) ∧ decode [0xDB, 0x01] = .ok (.inp 1, []) ∧
    decode [0b01110110] = .ok (.hlt, []) ∧ decode [0xED, 0x00, 0x30] = .ok (.callAlt 2 0x3000, []) ∧
    decode [0b10010010] = .ok (.subR .d, []) ∧ decode [0b10011011] = .ok (.sbbR .e, []) ∧
    decode [0b10100100] = .ok (.anaR .h, []) ∧ decode [0b10101101] = .ok (.xraR .l, []) ∧
    decode [0b10110111] = .ok (.oraR .a, []) ∧ decode [0b00111001] = .ok (.dad .sp, []) ∧
    decode [0b00100111] = .ok (.daa, []) ∧ decode [0b11010101] = .ok (.pushRp .de, []) ∧
    decode [0xD3, 0x02] = .ok (.out 2, []) ∧ decode [0b11111011] = .ok (.ei, []) ∧ decode [0b11110011] = .ok (.di, []) ∧
    decode [0b00000000] = .ok (.nop, []) ∧ decode [0b00101000] = .ok (.nopAlt 5, []) ∧
    decode [0xCB, 0x34, 0x12] = .ok (.jmpAlt 0x1234, []) ∧ decode [0b11011001] = .ok (.retAlt, [])

/-! ### The step -/

/-- R100: a core that is not halted runs the instruction its bytes at pc, pc + 1 and pc + 2 decode to, from the same state
with an empty list of signals. -/
def Obligations.StepRunsDecodedInstruction : Prop :=
  ∀ (s : State) (i : Instr) (rest : List Byte), s.halted = false →
    decode [s.memRead s.pc, s.memRead (s.pc + 1), s.memRead (s.pc + 2)] = .ok (i, rest) →
    step s = exec i { s with diags := [] }

/-- R108: a step of a halted core changes nothing. The wait-state reading of HLT is the spec's decision D11; that Halted is a
next state is the model's (log entry 6). -/
def Obligations.HaltedStepChangesNothing : Prop := ∀ s : State, s.halted = true → step s = .next s

/-- R92, R300, R301: from every state a step answers a next state: no opcode is a decoding gap, no access faults, no
arithmetic traps, no instruction is refused. Its halted case rests on R108 (the spec's decision D11) and on the
model's choice that the outcome Halted of R104 is a next state (log entry 6). That the undocumented bytes decode and that no byte is
illegal are the spec's decisions D9 and D10. -/
def Obligations.StepAlwaysAnswersNext : Prop := ∀ s : State, ∃ t : State, step s = .next t

/-! ### Data transfer -/

/-- `i` puts `v` into the register `dst` and touches nothing else but pc and the reported cost. -/
def LoadsRegister (i : Instr) (s : State) (dst : Reg) (v : Byte) (len cost : Nat) : Prop :=
  ∃ t : State, exec i s = .next t ∧ t.reg dst = v ∧ (∀ r : Reg, r ≠ dst → t.reg r = s.reg r) ∧ Retires s t len cost ∧
    t = { s with b := t.b, c := t.c, d := t.d, e := t.e, h := t.h, l := t.l, a := t.a, pc := t.pc, cycles := t.cycles } ∧
    SameMemory s t

/-- R140 (MOV r,r), R141 (MOV r,M), R143 (MVI r), R146 (LDA), R150 (LDAX), with the register codes of R82. -/
def Obligations.RegisterMovesAndLoads : Prop :=
  RegisterCodes ∧ ∀ s : State,
    (∀ dst src : Reg,
      encode (.movRR dst src) = [BitVec.ofNat 8 (0x40 + 8 * (codeOfReg dst).toNat + (codeOfReg src).toNat)] ∧
      LoadsRegister (.movRR dst src) s dst (s.reg src) 1 5) ∧
    (∀ dst : Reg,
      encode (.movRM dst) = [BitVec.ofNat 8 (0x46 + 8 * (codeOfReg dst).toNat)] ∧
      LoadsRegister (.movRM dst) s dst (s.memRead (joinBytes s.h s.l)) 1 7) ∧
    (∀ (dst : Reg) (v : Byte),
      encode (.mviR dst v) = [BitVec.ofNat 8 (0x06 + 8 * (codeOfReg dst).toNat), v] ∧
      LoadsRegister (.mviR dst v) s dst v 2 7) ∧
    (∀ adr : Addr,
      encode (.lda adr) = [0x3A, loByte adr, hiByte adr] ∧ LoadsRegister (.lda adr) s .a (s.memRead adr) 3 13) ∧
    (encode (.ldax .bc) = [0x0A] ∧ LoadsRegister (.ldax .bc) s .a (s.memRead (joinBytes s.b s.c)) 1 7) ∧
    encode (.ldax .de) = [0x1A] ∧ LoadsRegister (.ldax .de) s .a (s.memRead (joinBytes s.d s.e)) 1 7

/-- `i` presents the byte writes `ws` to the memory port and touches nothing else but pc and the reported cost. -/
def StoresOnly (i : Instr) (s : State) (ws : List (Addr × Byte)) (len cost : Nat) : Prop :=
  ∃ t : State, exec i s = .next t ∧ Stores s t ws ∧ Retires s t len cost ∧
    t = { s with mem := t.mem, diags := t.diags, pc := t.pc, cycles := t.cycles }

/-- R142 (MOV M,r), R144 (MVI M), R147 (STA), R151 (STAX). The repeated redirect in `Stores` is the spec's decision D17. -/
def Obligations.ByteStores : Prop :=
  ∀ s : State,
    (∀ src : Reg,
      encode (.movMR src) = [BitVec.ofNat 8 (0x70 + (codeOfReg src).toNat)] ∧
      StoresOnly (.movMR src) s [(joinBytes s.h s.l, s.reg src)] 1 7) ∧
    (∀ v : Byte, encode (.mviM v) = [0x36, v] ∧ StoresOnly (.mviM v) s [(joinBytes s.h s.l, v)] 2 10) ∧
    (∀ adr : Addr, encode (.sta adr) = [0x32, loByte adr, hiByte adr] ∧ StoresOnly (.sta adr) s [(adr, s.a)] 3 13) ∧
    (encode (.stax .bc) = [0x02] ∧ StoresOnly (.stax .bc) s [(joinBytes s.b s.c, s.a)] 1 7) ∧
    encode (.stax .de) = [0x12] ∧ StoresOnly (.stax .de) s [(joinBytes s.d s.e, s.a)] 1 7

/-- R148 (LHLD), R149 (SHLD), R152 (XCHG). The repeated redirect in `Stores` is the spec's decision D17. -/
def Obligations.HlTransfers : Prop :=
  ∀ s : State,
    (∀ adr : Addr, encode (.lhld adr) = [0x2A, loByte adr, hiByte adr] ∧
      ∃ t : State, exec (.lhld adr) s = .next t ∧ t.l = s.memRead adr ∧ t.h = s.memRead (adr + 1) ∧ Retires s t 3 16 ∧
        t = { s with h := t.h, l := t.l, pc := t.pc, cycles := t.cycles } ∧ SameMemory s t) ∧
    (∀ adr : Addr, encode (.shld adr) = [0x22, loByte adr, hiByte adr] ∧
      StoresOnly (.shld adr) s [(adr, s.l), (adr + 1, s.h)] 3 16) ∧
    encode .xchg = [0xEB] ∧
    ∃ t : State, exec .xchg s = .next t ∧ t.h = s.d ∧ t.l = s.e ∧ t.d = s.h ∧ t.e = s.l ∧ Retires s t 1 4 ∧
      t = { s with h := t.h, l := t.l, d := t.d, e := t.e, pc := t.pc, cycles := t.cycles } ∧ SameMemory s t

/-- `i` puts `v` into the register pair `p` and touches nothing else but pc and the reported cost. -/
def LoadsPair (i : Instr) (s : State) (p : Pair) (v : Nat) (len cost : Nat) : Prop :=
  ∃ t : State, exec i s = .next t ∧ (t.pair p).toNat = v ∧ (∀ q : Pair, q ≠ p → t.pair q = s.pair q) ∧ t.a = s.a ∧
    Retires s t len cost ∧
    t = { s with b := t.b, c := t.c, d := t.d, e := t.e, h := t.h, l := t.l, sp := t.sp, pc := t.pc, cycles := t.cycles } ∧
    SameMemory s t

/-- R145 (LXI), R186 (INX), R187 (DCX), over the pair views and codes of R22 and the two bytes of a 16-bit value (R9). Pair 3
as sp is the spec's decision D2. -/
def Obligations.PairLoadsAndSteps : Prop :=
  PairCodes ∧ (∀ v : Addr, (hiByte v).toNat = v.toNat / 256 ∧ (loByte v).toNat = v.toNat % 256) ∧ ∀ s : State,
    ((s.pair .bc).toNat = 256 * s.b.toNat + s.c.toNat ∧ (s.pair .de).toNat = 256 * s.d.toNat + s.e.toNat ∧
      (s.pair .hl).toNat = 256 * s.h.toNat + s.l.toNat ∧ s.pair .sp = s.sp) ∧
    ∀ p : Pair,
      (∀ v : Addr,
        encode (.lxi p v) = [BitVec.ofNat 8 (0x01 + 16 * (codeOfPair p).toNat), loByte v, hiByte v] ∧
        LoadsPair (.lxi p v) s p v.toNat 3 10) ∧
      encode (.inx p) = [BitVec.ofNat 8 (0x03 + 16 * (codeOfPair p).toNat)] ∧
      LoadsPair (.inx p) s p (((s.pair p).toNat + 1) % 0x10000) 1 5 ∧
      encode (.dcx p) = [BitVec.ofNat 8 (0x0B + 16 * (codeOfPair p).toNat)] ∧
      LoadsPair (.dcx p) s p (((s.pair p).toNat + 0xFFFF) % 0x10000) 1 5

/-! ### Arithmetic -/

/-- `i` adds `b` and the carry-in `c` to A: the 8-bit sum, CY the carry out of bit 7, AC the carry out of bit 3, S, Z and P
of the sum (R123); nothing else changes but pc and the reported cost. -/
def AddsToA (i : Instr) (s : State) (b : Byte) (c len cost : Nat) : Prop :=
  ∃ t : State, exec i s = .next t ∧ t.a.toNat = (s.a.toNat + b.toNat + c) % 256 ∧
    (t.flags.cy = true ↔ s.a.toNat + b.toNat + c > 255) ∧
    (t.flags.ac = true ↔ s.a.toNat % 16 + b.toNat % 16 + c > 15) ∧ SignZeroParity t.flags t.a ∧ Retires s t len cost ∧
    t = { s with a := t.a, flags := t.flags, pc := t.pc, cycles := t.cycles } ∧ SameMemory s t

/-- R170 to R172 (ADD r, ADD M, ADI), R173 to R175 (ADC r, ADC M, ACI). Even parity is the spec's decision D8. -/
def Obligations.AdditionInstructions : Prop :=
  ∀ s : State,
    (∀ r : Reg,
      (encode (.addR r) = [BitVec.ofNat 8 (0x80 + (codeOfReg r).toNat)] ∧ AddsToA (.addR r) s (s.reg r) 0 1 4) ∧
      encode (.adcR r) = [BitVec.ofNat 8 (0x88 + (codeOfReg r).toNat)] ∧
      AddsToA (.adcR r) s (s.reg r) s.flags.cy.toNat 1 4) ∧
    (encode .addM = [0x86] ∧ AddsToA .addM s (s.memRead (joinBytes s.h s.l)) 0 1 7) ∧
    (encode .adcM = [0x8E] ∧ AddsToA .adcM s (s.memRead (joinBytes s.h s.l)) s.flags.cy.toNat 1 7) ∧
    ∀ v : Byte,
      (encode (.adi v) = [0xC6, v] ∧ AddsToA (.adi v) s v 0 2 7) ∧
      encode (.aci v) = [0xCE, v] ∧ AddsToA (.aci v) s v s.flags.cy.toNat 2 7

/-- The flags `f` of `a - b - c` with difference `r`: CY the borrow (R124); AC 1 exactly when no borrow passes from bit 4
into bit 3 under SUB_AC_RULE = intel, and the draw under `free` (R125); S, Z and P of the difference. -/
def DifferenceFlags (s : State) (f : Flags) (r b : Byte) (c : Nat) : Prop :=
  (f.cy = true ↔ s.a.toNat < b.toNat + c) ∧ SignZeroParity f r ∧
    (s.cfg.subAcRule = .intel → (f.ac = true ↔ b.toNat % 16 + c ≤ s.a.toNat % 16)) ∧
    (s.cfg.subAcRule = .free → f.ac = Config.acDraw s.draws)

/-- The draws made by a subtraction: one under SUB_AC_RULE = free, none under intel. -/
def DifferenceDraws (s t : State) : Prop :=
  (s.cfg.subAcRule = .intel → t.draws = s.draws) ∧ (s.cfg.subAcRule = .free → t.draws = s.draws + 1)

/-- `i` subtracts `b` and the borrow-in `c` from A. -/
def SubtractsFromA (i : Instr) (s : State) (b : Byte) (c len cost : Nat) : Prop :=
  ∃ t : State, exec i s = .next t ∧ t.a.toNat = (s.a.toNat + 512 - b.toNat - c) % 256 ∧
    DifferenceFlags s t.flags t.a b c ∧ DifferenceDraws s t ∧ Retires s t len cost ∧
    t = { s with a := t.a, flags := t.flags, draws := t.draws, pc := t.pc, cycles := t.cycles } ∧ SameMemory s t

/-- R176 to R178 (SUB r, SUB M, SUI), R179 to R181 (SBB r, SBB M, SBI). That CY is the borrow, AC follows SUB_AC_RULE and
parity is even are the spec's decisions D3, D4 and D8; the draw under `free` is the model's free value (log entry 4). -/
def Obligations.SubtractionInstructions : Prop :=
  ∀ s : State,
    (∀ r : Reg,
      (encode (.subR r) = [BitVec.ofNat 8 (0x90 + (codeOfReg r).toNat)] ∧ SubtractsFromA (.subR r) s (s.reg r) 0 1 4) ∧
      encode (.sbbR r) = [BitVec.ofNat 8 (0x98 + (codeOfReg r).toNat)] ∧
      SubtractsFromA (.sbbR r) s (s.reg r) s.flags.cy.toNat 1 4) ∧
    (encode .subM = [0x96] ∧ SubtractsFromA .subM s (s.memRead (joinBytes s.h s.l)) 0 1 7) ∧
    (encode .sbbM = [0x9E] ∧ SubtractsFromA .sbbM s (s.memRead (joinBytes s.h s.l)) s.flags.cy.toNat 1 7) ∧
    ∀ v : Byte,
      (encode (.sui v) = [0xD6, v] ∧ SubtractsFromA (.sui v) s v 0 2 7) ∧
      encode (.sbi v) = [0xDE, v] ∧ SubtractsFromA (.sbi v) s v s.flags.cy.toNat 2 7

/-- The flags INR and DCR leave: S, Z and P of the result, AC as given, CY unchanged. -/
def StepFlags (s t : State) (r : Byte) (ac : Prop) : Prop :=
  SignZeroParity t.flags r ∧ (t.flags.ac = true ↔ ac) ∧ t.flags.cy = s.flags.cy

/-- R182 (INR r), R183 (INR M), R184 (DCR r), R185 (DCR M): the value steps by one mod 256, CY is unchanged, and the flags
are written even where the memory write is dropped. Even parity and the repeated redirect are the spec's decisions D8, D17. -/
def Obligations.IncrementAndDecrement : Prop :=
  ∀ s : State,
    (∀ r : Reg,
      (encode (.inrR r) = [BitVec.ofNat 8 (0x04 + 8 * (codeOfReg r).toNat)] ∧
        ∃ t : State, exec (.inrR r) s = .next t ∧ (t.reg r).toNat = ((s.reg r).toNat + 1) % 256 ∧
          (∀ q : Reg, q ≠ r → t.reg q = s.reg q) ∧ StepFlags s t (t.reg r) ((s.reg r).toNat % 16 = 15) ∧
          Retires s t 1 5 ∧ SameMemory s t ∧
          t = { s with b := t.b, c := t.c, d := t.d, e := t.e, h := t.h, l := t.l, a := t.a, flags := t.flags, pc := t.pc, cycles := t.cycles }) ∧
      encode (.dcrR r) = [BitVec.ofNat 8 (0x05 + 8 * (codeOfReg r).toNat)] ∧
      ∃ t : State, exec (.dcrR r) s = .next t ∧ (t.reg r).toNat = ((s.reg r).toNat + 255) % 256 ∧
        (∀ q : Reg, q ≠ r → t.reg q = s.reg q) ∧ StepFlags s t (t.reg r) ((s.reg r).toNat % 16 ≠ 0) ∧
        Retires s t 1 5 ∧ SameMemory s t ∧
        t = { s with b := t.b, c := t.c, d := t.d, e := t.e, h := t.h, l := t.l, a := t.a, flags := t.flags, pc := t.pc, cycles := t.cycles }) ∧
    (encode .inrM = [0x34] ∧
      ∃ t : State, exec .inrM s = .next t ∧
        Stores s t [(joinBytes s.h s.l, s.memRead (joinBytes s.h s.l) + 1)] ∧
        StepFlags s t (s.memRead (joinBytes s.h s.l) + 1) ((s.memRead (joinBytes s.h s.l)).toNat % 16 = 15) ∧
        Retires s t 1 10 ∧ t = { s with mem := t.mem, diags := t.diags, flags := t.flags, pc := t.pc, cycles := t.cycles }) ∧
    encode .dcrM = [0x35] ∧
    ∃ t : State, exec .dcrM s = .next t ∧
      Stores s t [(joinBytes s.h s.l, s.memRead (joinBytes s.h s.l) - 1)] ∧
      StepFlags s t (s.memRead (joinBytes s.h s.l) - 1) ((s.memRead (joinBytes s.h s.l)).toNat % 16 ≠ 0) ∧
      Retires s t 1 10 ∧ t = { s with mem := t.mem, diags := t.diags, flags := t.flags, pc := t.pc, cycles := t.cycles }

/-- R188 (DAD): HL plus the pair mod 2^16, CY its carry, every other flag unchanged. Pair 3 as sp is the spec's decision D2. -/
def Obligations.DoubleAdd : Prop :=
  ∀ (s : State) (p : Pair), encode (.dad p) = [BitVec.ofNat 8 (0x09 + 16 * (codeOfPair p).toNat)] ∧
    ∃ t : State, exec (.dad p) s = .next t ∧
    256 * t.h.toNat + t.l.toNat = (256 * s.h.toNat + s.l.toNat + (s.pair p).toNat) % 0x10000 ∧
    (t.flags.cy = true ↔ 256 * s.h.toNat + s.l.toNat + (s.pair p).toNat > 0xFFFF) ∧
    t.flags = { s.flags with cy := t.flags.cy } ∧ Retires s t 1 10 ∧ SameMemory s t ∧
    t = { s with h := t.h, l := t.l, flags := t.flags, pc := t.pc, cycles := t.cycles }

/-- R189's two-step algorithm, as what it leaves in A, AC and CY. -/
def TwoStepAdjusted (s t : State) : Prop :=
  let low := s.a.toNat % 16 > 9 ∨ s.flags.ac = true
  ∃ a1 : Nat, (low → a1 = (s.a.toNat + 0x06) % 256) ∧ (¬low → a1 = s.a.toNat) ∧
    (t.flags.ac = true ↔ low ∧ s.a.toNat % 16 + 6 > 15) ∧
    ((a1 / 16 > 9 ∨ s.flags.cy = true) → t.a.toNat = (a1 + 0x60) % 256 ∧
      (t.flags.cy = true ↔ s.flags.cy = true ∨ a1 + 0x60 > 255)) ∧
    (¬(a1 / 16 > 9 ∨ s.flags.cy = true) → t.a.toNat = a1 ∧ t.flags.cy = s.flags.cy)

/-- R189's silicon correction, as what it leaves in A, AC and CY. -/
def SiliconAdjusted (s t : State) : Prop :=
  ∃ corr : Nat,
    corr = (if s.a.toNat % 16 > 9 ∨ s.flags.ac = true then 0x06 else 0) +
      (if s.a.toNat / 16 > 9 ∨ s.flags.cy = true ∨ (s.a.toNat / 16 ≥ 9 ∧ s.a.toNat % 16 > 9) then 0x60 else 0) ∧
    t.a.toNat = (s.a.toNat + corr) % 256 ∧ (t.flags.ac = true ↔ s.a.toNat % 16 + corr % 16 > 15) ∧
    (t.flags.cy = true ↔ s.flags.cy = true ∨ corr ≥ 0x60)

/-- R189 (DAA), in each DAA_MODE: the two-step result, the silicon result, or either, the choice a draw. DAA_MODE and even
parity are the spec's decisions D6 and D8; the draw under `either` is the model's free choice (log entry 4). -/
def Obligations.DecimalAdjust : Prop :=
  ∀ s : State, encode .daa = [0x27] ∧ ∃ t : State, exec .daa s = .next t ∧
    (s.cfg.daaMode = .twoStep → TwoStepAdjusted s t ∧ t.draws = s.draws) ∧
    (s.cfg.daaMode = .silicon → SiliconAdjusted s t ∧ t.draws = s.draws) ∧
    (s.cfg.daaMode = .either → (TwoStepAdjusted s t ∨ SiliconAdjusted s t) ∧ t.draws = s.draws + 1) ∧
    SignZeroParity t.flags t.a ∧ Retires s t 1 4 ∧ SameMemory s t ∧
    t = { s with a := t.a, flags := t.flags, draws := t.draws, pc := t.pc, cycles := t.cycles }

/-- R189, C10: the two algorithms agree on every A, AC and CY but the twelve with A in 0xFA..0xFF and CY = 0, where they
give A + 6 - 0x100 with CY = 0 and A + 0x66 - 0x100 with CY = 1. -/
def Obligations.DaaModesDifferOnTwelveInputs : Prop :=
  ∀ (a : Byte) (ac cy : Bool),
    (0xFA ≤ a.toNat ∧ cy = false →
      (daaTwoStep a ac cy).value.toNat = a.toNat + 6 - 0x100 ∧ (daaTwoStep a ac cy).flags.cy = false ∧
      (daaSilicon a ac cy).value.toNat = a.toNat + 0x66 - 0x100 ∧ (daaSilicon a ac cy).flags.cy = true) ∧
    (¬(0xFA ≤ a.toNat ∧ cy = false) → daaTwoStep a ac cy = daaSilicon a ac cy)

/-- R132, the source's symmetry property: ADD r then SUB r with the same register (not A) restores A, and CY after the ADD
equals the borrow after the SUB. That CY is the borrow is the spec's decision D3. -/
def Obligations.AddThenSubtractRestores : Prop :=
  ∀ (s : State) (r : Reg), r ≠ .a → ∃ t u : State, exec (.addR r) s = .next t ∧ exec (.subR r) t = .next u ∧
    u.a = s.a ∧ u.flags.cy = t.flags.cy

/-! ### Logical, compare, rotate -/

/-- `i` puts `r` into A with CY = 0, AC = `ac`, and S, Z and P of `r`; nothing else changes but pc and the reported cost. -/
def LogicToA (i : Instr) (s : State) (r : Byte) (ac : Bool) (len cost : Nat) : Prop :=
  ∃ t : State, exec i s = .next t ∧ t.a = r ∧ t.flags.cy = false ∧ t.flags.ac = ac ∧ SignZeroParity t.flags r ∧
    Retires s t len cost ∧ SameMemory s t ∧
    t = { s with a := t.a, flags := t.flags, pc := t.pc, cycles := t.cycles }

/-- R210 to R218 (ANA, ANI, XRA, XRI, ORA, ORI). The flags CY = 0 and AC are the spec's decision D5,
even parity D8. -/
def Obligations.LogicalInstructions : Prop :=
  ∀ s : State,
    (∀ r : Reg,
      (encode (.anaR r) = [BitVec.ofNat 8 (0xA0 + (codeOfReg r).toNat)] ∧
        LogicToA (.anaR r) s (s.a &&& s.reg r) (s.a.getLsbD 3 || (s.reg r).getLsbD 3) 1 4) ∧
      (encode (.xraR r) = [BitVec.ofNat 8 (0xA8 + (codeOfReg r).toNat)] ∧
        LogicToA (.xraR r) s (s.a ^^^ s.reg r) false 1 4) ∧
      encode (.oraR r) = [BitVec.ofNat 8 (0xB0 + (codeOfReg r).toNat)] ∧
      LogicToA (.oraR r) s (s.a ||| s.reg r) false 1 4) ∧
    (encode .anaM = [0xA6] ∧
      LogicToA .anaM s (s.a &&& s.memRead (joinBytes s.h s.l))
        (s.a.getLsbD 3 || (s.memRead (joinBytes s.h s.l)).getLsbD 3) 1 7) ∧
    (encode .xraM = [0xAE] ∧ LogicToA .xraM s (s.a ^^^ s.memRead (joinBytes s.h s.l)) false 1 7) ∧
    (encode .oraM = [0xB6] ∧ LogicToA .oraM s (s.a ||| s.memRead (joinBytes s.h s.l)) false 1 7) ∧
    ∀ v : Byte,
      (encode (.ani v) = [0xE6, v] ∧ LogicToA (.ani v) s (s.a &&& v) (s.a.getLsbD 3 || v.getLsbD 3) 2 7) ∧
      (encode (.xri v) = [0xEE, v] ∧ LogicToA (.xri v) s (s.a ^^^ v) false 2 7) ∧
      encode (.ori v) = [0xF6, v] ∧ LogicToA (.ori v) s (s.a ||| v) false 2 7

/-- `i` writes the flags of `A - b` and leaves A unchanged: Z exactly when they are equal, CY exactly when A is less. -/
def ComparesWithA (i : Instr) (s : State) (b : Byte) (len cost : Nat) : Prop :=
  ∃ t : State, exec i s = .next t ∧ DifferenceFlags s t.flags (s.a - b) b 0 ∧ DifferenceDraws s t ∧
    (t.flags.z = true ↔ s.a = b) ∧ (t.flags.cy = true ↔ s.a.toNat < b.toNat) ∧ Retires s t len cost ∧ SameMemory s t ∧
    t = { s with flags := t.flags, draws := t.draws, pc := t.pc, cycles := t.cycles }

/-- R219 to R221 (CMP r, CMP M, CPI). CY, AC and P rest on the spec's decisions D3, D4 and D8. -/
def Obligations.CompareInstructions : Prop :=
  ∀ s : State,
    (∀ r : Reg, encode (.cmpR r) = [BitVec.ofNat 8 (0xB8 + (codeOfReg r).toNat)] ∧
      ComparesWithA (.cmpR r) s (s.reg r) 1 4) ∧
    (encode .cmpM = [0xBE] ∧ ComparesWithA .cmpM s (s.memRead (joinBytes s.h s.l)) 1 7) ∧
    ∀ v : Byte, encode (.cpi v) = [0xFE, v] ∧ ComparesWithA (.cpi v) s v 2 7

/-- `i` changes A and CY alone, besides pc and the reported cost, to what `Q` says of the state after. -/
def RotatesA (i : Instr) (op : Byte) (s : State) (Q : State → Prop) : Prop :=
  encode i = [op] ∧ ∃ t : State, exec i s = .next t ∧ Q t ∧ t.flags = { s.flags with cy := t.flags.cy } ∧
    Retires s t 1 4 ∧ SameMemory s t ∧ t = { s with a := t.a, flags := t.flags, pc := t.pc, cycles := t.cycles }

/-- R222 to R225 (RLC, RRC, RAL, RAR), bit by bit. -/
def Obligations.RotateInstructions : Prop :=
  ∀ s : State,
    RotatesA .rlc 0x07 s (fun t => (∀ j < 7, t.a.getLsbD (j + 1) = s.a.getLsbD j) ∧ t.a.getLsbD 0 = s.a.getLsbD 7 ∧
      t.flags.cy = s.a.getLsbD 7) ∧
    RotatesA .rrc 0x0F s (fun t => (∀ j < 7, t.a.getLsbD j = s.a.getLsbD (j + 1)) ∧ t.a.getLsbD 7 = s.a.getLsbD 0 ∧
      t.flags.cy = s.a.getLsbD 0) ∧
    RotatesA .ral 0x17 s (fun t => (∀ j < 7, t.a.getLsbD (j + 1) = s.a.getLsbD j) ∧ t.a.getLsbD 0 = s.flags.cy ∧
      t.flags.cy = s.a.getLsbD 7) ∧
    RotatesA .rar 0x1F s (fun t => (∀ j < 7, t.a.getLsbD j = s.a.getLsbD (j + 1)) ∧ t.a.getLsbD 7 = s.flags.cy ∧
      t.flags.cy = s.a.getLsbD 0)

/-- The corner cases of R222 to R225: eight RLCs or RRCs restore A and leave in CY the last bit rotated; nine RALs or RARs
restore A and CY. -/
def Obligations.RepeatedRotatesRestore : Prop :=
  ∀ s : State,
    (∃ t : State, execSeq (List.replicate 8 .rlc) s = .next t ∧ t.a = s.a ∧ t.flags.cy = s.a.getLsbD 0) ∧
    (∃ t : State, execSeq (List.replicate 8 .rrc) s = .next t ∧ t.a = s.a ∧ t.flags.cy = s.a.getLsbD 7) ∧
    (∃ t : State, execSeq (List.replicate 9 .ral) s = .next t ∧ t.a = s.a ∧ t.flags = s.flags) ∧
    ∃ t : State, execSeq (List.replicate 9 .rar) s = .next t ∧ t.a = s.a ∧ t.flags = s.flags

/-- R226 (CMA), R227 (CMC), R228 (STC). -/
def Obligations.ComplementsAndSetCarry : Prop :=
  ∀ s : State,
    (encode .cma = [0x2F] ∧
      ∃ t : State, exec .cma s = .next t ∧ t.a.toNat = 255 - s.a.toNat ∧ Retires s t 1 4 ∧ SameMemory s t ∧
        t = { s with a := t.a, pc := t.pc, cycles := t.cycles }) ∧
    RotatesA .cmc 0x3F s (fun t => t.flags.cy = !s.flags.cy ∧ t.a = s.a) ∧
    RotatesA .stc 0x37 s (fun t => t.flags.cy = true ∧ t.a = s.a)

/-! ### Branch -/

/-- R240 (JMP), R241 (Jcc) with the conditions of R87 and their codes, R247 (PCHL): pc and the reported cost are all that
changes. -/
def Obligations.JumpInstructions : Prop :=
  ConditionCodes ∧ ∀ s : State,
    (condHolds s.flags .nz = !s.flags.z ∧ condHolds s.flags .z = s.flags.z ∧ condHolds s.flags .nc = !s.flags.cy ∧
      condHolds s.flags .c = s.flags.cy ∧ condHolds s.flags .po = !s.flags.p ∧ condHolds s.flags .pe = s.flags.p ∧
      condHolds s.flags .p = !s.flags.s ∧ condHolds s.flags .m = s.flags.s) ∧
    (∀ adr : Addr, encode (.jmp adr) = [0xC3, loByte adr, hiByte adr] ∧
      exec (.jmp adr) s = .next { s with pc := adr, cycles := 10 }) ∧
    (∀ (cc : Cond) (adr : Addr),
      encode (.jcc cc adr) = [BitVec.ofNat 8 (0xC2 + 8 * (codeOfCond cc).toNat), loByte adr, hiByte adr] ∧
      exec (.jcc cc adr) s = .next { s with pc := if condHolds s.flags cc then adr else s.pc + 3, cycles := 10 }) ∧
    encode .pchl = [0xE9] ∧ exec .pchl s = .next { s with pc := joinBytes s.h s.l, cycles := 5 }

/-- `i` pushes `ret` (high byte to sp - 1, then low byte to sp - 2, sp down by 2) and goes to `target`; nothing else changes
but the reported cost. -/
def PushesAndGoesTo (i : Instr) (s : State) (ret target : Addr) (cost : Nat) : Prop :=
  ∃ t : State, exec i s = .next t ∧ Stores s t [(s.sp - 1, hiByte ret), (s.sp - 2, loByte ret)] ∧ t.sp = s.sp - 2 ∧
    t.pc = target ∧ t.cycles = cost ∧
    t = { s with mem := t.mem, diags := t.diags, sp := t.sp, pc := t.pc, cycles := t.cycles }

/-- R242 (CALL), R243 (Ccc), R246 (RST). The order of the pushed bytes and the repeated redirect are the spec's decisions D1
and D17. -/
def Obligations.CallInstructions : Prop :=
  ∀ s : State,
    (∀ adr : Addr, encode (.call adr) = [0xCD, loByte adr, hiByte adr] ∧
      PushesAndGoesTo (.call adr) s (s.pc + 3) adr 17) ∧
    (∀ (cc : Cond) (adr : Addr),
      encode (.ccc cc adr) = [BitVec.ofNat 8 (0xC4 + 8 * (codeOfCond cc).toNat), loByte adr, hiByte adr] ∧
      (condHolds s.flags cc = true → PushesAndGoesTo (.ccc cc adr) s (s.pc + 3) adr 17) ∧
      (condHolds s.flags cc = false → exec (.ccc cc adr) s = .next { s with pc := s.pc + 3, cycles := 11 })) ∧
    ∀ n : BitVec 3, encode (.rst n) = [BitVec.ofNat 8 (0xC7 + 8 * n.toNat)] ∧
      PushesAndGoesTo (.rst n) s (s.pc + 1) (BitVec.ofNat 16 (8 * n.toNat)) 11

/-- R244 (RET), R245 (Rcc): the word at sp, low byte at sp, goes to pc, and sp goes up by 2. Its byte order is the
spec's decision D1. -/
def Obligations.ReturnInstructions : Prop :=
  ∀ s : State,
    (encode .ret = [0xC9] ∧
      exec .ret s = .next { s with pc := joinBytes (s.memRead (s.sp + 1)) (s.memRead s.sp), sp := s.sp + 2, cycles := 10 }) ∧
    ∀ cc : Cond, encode (.rcc cc) = [BitVec.ofNat 8 (0xC0 + 8 * (codeOfCond cc).toNat)] ∧
      (condHolds s.flags cc = true → exec (.rcc cc) s =
        .next { s with pc := joinBytes (s.memRead (s.sp + 1)) (s.memRead s.sp), sp := s.sp + 2, cycles := 11 }) ∧
      (condHolds s.flags cc = false → exec (.rcc cc) s = .next { s with pc := s.pc + 1, cycles := 5 })

/-- R342: with sp in [0x2002, 0x4001] a RET after a CALL returns to the instruction after the CALL with sp restored, every
register and flag unchanged, whatever READ_REDIRECT is. -/
def Obligations.CallThenReturn : Prop :=
  ∀ (s : State) (adr : Addr), s.Inv → 0x2002 ≤ s.sp.toNat → s.sp.toNat ≤ 0x4001 →
    ∃ t u : State, exec (.call adr) s = .next t ∧ exec .ret t = .next u ∧
      u = { s with pc := s.pc + 3, mem := t.mem, cycles := u.cycles }

/-! ### Stack, I/O and machine control -/

/-- R260 (PUSH rp), R262 (POP rp). The order of the two byte writes and the repeated redirect are the
spec's decisions D1 and D17. -/
def Obligations.PushAndPopPairs : Prop :=
  StackPairCodes ∧ ∀ (s : State) (p : StackPair),
    (encode (.pushRp p) = [BitVec.ofNat 8 (0xC5 + 16 * (codeOfStackPair p).toNat)] ∧
      PushesAndGoesTo (.pushRp p) s (s.pair (stackPair p)) (s.pc + 1) 11) ∧
    encode (.popRp p) = [BitVec.ofNat 8 (0xC1 + 16 * (codeOfStackPair p).toNat)] ∧
    ∃ t : State, exec (.popRp p) s = .next t ∧
      t.pair (stackPair p) = joinBytes (s.memRead (s.sp + 1)) (s.memRead s.sp) ∧
      (∀ q : StackPair, q ≠ p → t.pair (stackPair q) = s.pair (stackPair q)) ∧ t.sp = s.sp + 2 ∧ Retires s t 1 10 ∧
      SameMemory s t ∧
      t = { s with b := t.b, c := t.c, d := t.d, e := t.e, h := t.h, l := t.l, sp := t.sp, pc := t.pc, cycles := t.cycles }

/-- R261 (PUSH PSW), R263 (POP PSW) with the flag byte of R28: S Z 0 AC 0 P 1 CY. The layout is the spec's decision D7. -/
def Obligations.PushAndPopPsw : Prop :=
  ∀ s : State, encode .pushPsw = [0xF5] ∧ encode .popPsw = [0xF1] ∧
    (∃ f : Byte, PushesAndGoesTo .pushPsw s (joinBytes s.a f) (s.pc + 1) 11 ∧ f.getLsbD 7 = s.flags.s ∧
      f.getLsbD 6 = s.flags.z ∧ f.getLsbD 5 = false ∧ f.getLsbD 4 = s.flags.ac ∧ f.getLsbD 3 = false ∧
      f.getLsbD 2 = s.flags.p ∧ f.getLsbD 1 = true ∧ f.getLsbD 0 = s.flags.cy) ∧
    ∃ t : State, exec .popPsw s = .next t ∧ t.a = s.memRead (s.sp + 1) ∧ t.flags.s = (s.memRead s.sp).getLsbD 7 ∧
      t.flags.z = (s.memRead s.sp).getLsbD 6 ∧ t.flags.ac = (s.memRead s.sp).getLsbD 4 ∧
      t.flags.p = (s.memRead s.sp).getLsbD 2 ∧ t.flags.cy = (s.memRead s.sp).getLsbD 0 ∧ t.sp = s.sp + 2 ∧
      Retires s t 1 10 ∧ SameMemory s t ∧
      t = { s with a := t.a, flags := t.flags, sp := t.sp, pc := t.pc, cycles := t.cycles }

/-- The source's round trip (R28): with sp in [0x2002, 0x4001], PUSH PSW, then any writing of A and the flags, then POP PSW
reproduces A and the five flags exactly. -/
def Obligations.PswRoundTrip : Prop :=
  ∀ (s : State) (a : Byte) (f : Flags), s.Inv → 0x2002 ≤ s.sp.toNat → s.sp.toNat ≤ 0x4001 →
    ∃ t u : State, exec .pushPsw s = .next t ∧ exec .popPsw { t with a := a, flags := f } = .next u ∧
      u.a = s.a ∧ u.flags = s.flags ∧ u.sp = s.sp

/-- Pushing one pair and popping another copies the first to the second, with sp in [0x2002, 0x4001] (R61, R62, R342). -/
def Obligations.PushThenPopCopiesPair : Prop :=
  ∀ (s : State) (p q : StackPair), s.Inv → 0x2002 ≤ s.sp.toNat → s.sp.toNat ≤ 0x4001 →
    ∃ t u : State, exec (.pushRp p) s = .next t ∧ exec (.popRp q) t = .next u ∧
      u.pair (stackPair q) = s.pair (stackPair p) ∧ u.sp = s.sp

/-- R264 (XTHL), R265 (SPHL). The repeated redirect in `Stores` is the spec's decision D17. -/
def Obligations.ExchangeAndLoadStackPointer : Prop :=
  ∀ s : State,
    (encode .xthl = [0xE3] ∧
      ∃ t : State, exec .xthl s = .next t ∧ t.l = s.memRead s.sp ∧ t.h = s.memRead (s.sp + 1) ∧
        Stores s t [(s.sp, s.l), (s.sp + 1, s.h)] ∧ Retires s t 1 18 ∧
        t = { s with h := t.h, l := t.l, mem := t.mem, diags := t.diags, pc := t.pc, cycles := t.cycles }) ∧
    encode .sphl = [0xF9] ∧
    ∃ t : State, exec .sphl s = .next t ∧ t.sp = joinBytes s.h s.l ∧ Retires s t 1 5 ∧ SameMemory s t ∧
      t = { s with sp := t.sp, pc := t.pc, cycles := t.cycles }

/-- R266 (IN) with IoRead of R320: the first port parameter that equals the port wins. A port no device has gives a draw
(the spec's decision D21; the model's free value, log entry 4); no device changes. -/
def Obligations.InputFromPort : Prop :=
  ∀ (s : State) (p : Byte), encode (.inp p) = [0xDB, p] ∧ ∃ t : State, exec (.inp p) s = .next t ∧
    (p = s.cfg.portDip1 → t.a = s.dip1) ∧
    (p ≠ s.cfg.portDip1 → p = s.cfg.portDip2 → t.a = s.dip2) ∧
    (p ≠ s.cfg.portDip1 → p ≠ s.cfg.portDip2 → p = s.cfg.portShiftResult →
      ∀ j < 8, t.a.getLsbD j = s.shift.getLsbD (8 - s.offset.toNat + j)) ∧
    (p ≠ s.cfg.portDip1 → p ≠ s.cfg.portDip2 → p ≠ s.cfg.portShiftResult →
      t.a = Config.ioDraw s.draws ∧ t.draws = s.draws + 1) ∧
    (p = s.cfg.portDip1 ∨ p = s.cfg.portDip2 ∨ p = s.cfg.portShiftResult → t.draws = s.draws) ∧
    Retires s t 2 10 ∧ SameMemory s t ∧ t = { s with a := t.a, draws := t.draws, pc := t.pc, cycles := t.cycles }

/-- R267 (OUT) with IoWrite of R320: the shift fill, the shift offset, or nothing (the spec's decision D21). -/
def Obligations.OutputToPort : Prop :=
  ∀ (s : State) (p : Byte), encode (.out p) = [0xD3, p] ∧ ∃ t : State, exec (.out p) s = .next t ∧
    (p = s.cfg.portShiftFill → t.shift.toNat = s.shift.toNat % 256 * 256 + s.a.toNat ∧ t.offset = s.offset) ∧
    (p ≠ s.cfg.portShiftFill → p = s.cfg.portShiftOffset → t.offset.toNat = s.a.toNat % 8 ∧ t.shift = s.shift) ∧
    (p ≠ s.cfg.portShiftFill → p ≠ s.cfg.portShiftOffset → t.shift = s.shift ∧ t.offset = s.offset) ∧
    Retires s t 2 10 ∧ SameMemory s t ∧
    t = { s with shift := t.shift, offset := t.offset, pc := t.pc, cycles := t.cycles }

/-- R322, R323: two fills replace the whole shift register, and the result is the eight bits the offset selects, when the
five port numbers do not hide one another. -/
def Obligations.ShiftPeripheralSelectsBits : Prop :=
  ∀ (s : State) (v1 v2 k : Byte), s.cfg.portShiftOffset ≠ s.cfg.portShiftFill →
    s.cfg.portShiftResult ≠ s.cfg.portDip1 → s.cfg.portShiftResult ≠ s.cfg.portDip2 →
    ∃ t : State,
      execSeq [.mviR .a v1, .out s.cfg.portShiftFill, .mviR .a v2, .out s.cfg.portShiftFill, .mviR .a k,
        .out s.cfg.portShiftOffset, .inp s.cfg.portShiftResult] s = .next t ∧
      t.shift.toNat = 256 * v1.toNat + v2.toNat ∧
      ∀ j < 8, t.a.getLsbD j = t.shift.getLsbD (8 - k.toNat % 8 + j)

/-- R268 (EI), R269 (DI), R270 (HLT), R271 (NOP). EI without delay and HLT as a wait state are the spec's decisions D12 and
D11. -/
def Obligations.MachineControl : Prop :=
  encode .ei = [0xFB] ∧ encode .di = [0xF3] ∧ encode .hlt = [0x76] ∧ encode .nop = [0x00] ∧ ∀ s : State,
    exec .ei s = .next { s with inte := true, pc := s.pc + 1, cycles := 4 } ∧
    exec .di s = .next { s with inte := false, pc := s.pc + 1, cycles := 4 } ∧
    exec .hlt s = .next { s with halted := true, pc := s.pc + 1, cycles := 7 } ∧
    exec .nop s = .next { s with pc := s.pc + 1, cycles := 4 }

/-- R290 to R293: each alternate encoding does exactly what the instruction it duplicates does. That the twelve bytes have
this meaning is the spec's decision D9. -/
def Obligations.AlternatesBehaveAsOriginals : Prop :=
  ∀ s : State,
    (∀ n : BitVec 3, encode (.nopAlt n) = [BitVec.ofNat 8 (8 * n.toNat)] ∧
      exec (.nopAlt n) s = .next { s with pc := s.pc + 1, cycles := 4 } ∧ exec (.nopAlt n) s = exec .nop s) ∧
    (∀ adr : Addr, encode (.jmpAlt adr) = [0xCB, loByte adr, hiByte adr] ∧
      exec (.jmpAlt adr) s = .next { s with pc := adr, cycles := 10 } ∧ exec (.jmpAlt adr) s = exec (.jmp adr) s) ∧
    (encode .retAlt = [0xD9] ∧
      exec .retAlt s =
        .next { s with pc := joinBytes (s.memRead (s.sp + 1)) (s.memRead s.sp), sp := s.sp + 2, cycles := 10 } ∧
      exec .retAlt s = exec .ret s) ∧
    ∀ (p : BitVec 2) (adr : Addr),
      encode (.callAlt p adr) = [BitVec.ofNat 8 (0xCD + 16 * p.toNat), loByte adr, hiByte adr] ∧
      PushesAndGoesTo (.callAlt p adr) s (s.pc + 3) adr 17 ∧ exec (.callAlt p adr) s = exec (.call adr) s

/-! ### Memory -/

/-- R53: a byte write acts by the zone of its address; the repeated redirect is the spec's decision D17. -/
def Obligations.ByteWriteActsByZone : Prop :=
  ∀ (s : State) (a : Addr) (v : Byte),
    (a.toNat < 0x2000 → s.memWrite a v = { s with diags := s.diags ++ [{ addr := a, value := v }] }) ∧
    (0x2000 ≤ a.toNat → a.toNat ≤ 0x4000 → s.memWrite a v = { s with mem := s.mem.write a.toNat v }) ∧
    (0x4000 < a.toNat → s.memWrite a v = s.memWrite (a - 0x2000) v)

/-- R54: above 0x4000 an address is lowered by the least number of 0x2000 that brings it to at most 0x4000, and never
reaches 0x2000 or the ROM zone. -/
def Obligations.RedirectTakesLeastMultiple : Prop :=
  ∀ a : Addr,
    (a.toNat ≤ 0x4000 → redirect a.toNat = a.toNat) ∧
    (0x4000 < a.toNat → ∃ k : Nat, 1 ≤ k ∧ redirect a.toNat = a.toNat - 0x2000 * k ∧ redirect a.toNat ≤ 0x4000 ∧
      0x2000 < redirect a.toNat ∧ ∀ j : Nat, 1 ≤ j → j < k → 0x4000 < a.toNat - 0x2000 * j)

/-- R52, R55, R66: a read returns its own address's cell under READ_REDIRECT = false and the redirected cell under true; it
returns the byte last written to the cell it reads, and a write leaves every other cell alone. So a write to a mirror address
is not read back at that address under false, and every write outside the ROM zone is under true. READ_REDIRECT is the spec's
decision D18, the repeated redirect D17. -/
def Obligations.ReadReturnsLastWrite : Prop :=
  (∀ (s : State) (x : Addr),
    (s.cfg.readRedirect = false → s.memRead x = s.mem.read x.toNat) ∧
    (s.cfg.readRedirect = true → s.memRead x = s.mem.read (redirect x.toNat))) ∧
  ∀ (s : State) (a x : Addr) (v : Byte), s.Inv →
    (storeCell a = some (readCell s.cfg x) → (s.memWrite a v).memRead x = v) ∧
    (storeCell a ≠ some (readCell s.cfg x) → (s.memWrite a v).memRead x = s.memRead x) ∧
    (s.cfg.readRedirect = false → 0x4000 < a.toNat →
      (s.memWrite a v).memRead a = s.memRead a ∧ (s.memWrite a v).mem.read (redirect a.toNat) = v) ∧
    (s.cfg.readRedirect = true → 0x2000 ≤ a.toNat → (s.memWrite a v).memRead a = v)

/-- The canonical form (the model's, log entry 1) is one: two canonical memories that hold the same byte in every cell are equal data. -/
def Obligations.CanonicalMemoryIsUnique : Prop :=
  ∀ m n : Memory, m.wf = true → n.wf = true → (∀ k < 0x10000, m.read k = n.read k) → m = n

/-! ### The whole machine -/

/-- Every step keeps the invariant: memory stays in its canonical form (the model's, log entry 1). -/
def Obligations.StepKeepsMemoryCanonical : Prop := ∀ s t : State, s.Inv → step s = .next t → t.Inv

/-- R57 and R55: no step changes a cell of the ROM zone or of the mirror zone; only [0x2000, 0x4000] is ever stored to. -/
def Obligations.StepStoresOnlyToRam : Prop :=
  ∀ s t : State, s.Inv → step s = .next t → ∀ k : Nat, k < 0x2000 ∨ 0x4000 < k → t.mem.read k = s.mem.read k

/-- R321, R21, R8: no step changes the DIP-switch registers, slot 6 or the launch parameters. -/
def Obligations.StepKeepsHostInputs : Prop :=
  ∀ s t : State, step s = .next t → t.dip1 = s.dip1 ∧ t.dip2 = s.dip2 ∧ t.slot6 = s.slot6 ∧ t.cfg = s.cfg

/-- R27, R29: an instruction not listed as writing a flag leaves it unchanged. -/
def Obligations.UnlistedInstructionsKeepFlags : Prop :=
  ∀ (i : Instr) (s t : State), exec i s = .next t →
    (writesSzpAc i = false → t.flags.s = s.flags.s ∧ t.flags.z = s.flags.z ∧ t.flags.p = s.flags.p ∧
      t.flags.ac = s.flags.ac) ∧
    (writesCy i = false → t.flags.cy = s.flags.cy)

/-- R26, R64: only the listed instructions change sp, and only the listed ones change memory or signal a dropped write. -/
def Obligations.UnlistedInstructionsKeepStackAndMemory : Prop :=
  ∀ (i : Instr) (s t : State), exec i s = .next t →
    (writesSp i = false → t.sp = s.sp) ∧ (writesMemory i = false → t.mem = s.mem ∧ t.diags = s.diags)

/-- R30, R31, R320: only EI sets and only DI clears the latch, only HLT halts, only OUT changes the shift device. -/
def Obligations.ControlStateChangesOnlyByName : Prop :=
  ∀ (i : Instr) (s t : State), exec i s = .next t →
    (t.inte ≠ s.inte → (i = .ei ∧ t.inte = true) ∨ (i = .di ∧ t.inte = false)) ∧
    (t.halted ≠ s.halted → i = .hlt ∧ t.halted = true) ∧
    (t.shift ≠ s.shift ∨ t.offset ≠ s.offset → ∃ p : Byte, i = .out p)

/-- R106, R350: the cost an instruction reports is its row of the cycle table (the spec's decision D24). -/
def Obligations.CostsFollowCycleTable : Prop :=
  ∀ (i : Instr) (s t : State), exec i s = .next t → t.cycles = cycleTable i s.flags

/-- R305, R302: an instruction raises at most two signals, each for an address of the ROM zone, after those already there (the
signal is the spec's decision D28). -/
def Obligations.AtMostTwoSignals : Prop :=
  ∀ (i : Instr) (s t : State), exec i s = .next t →
    ∃ ds : List RomWriteDropped, t.diags = s.diags ++ ds ∧ ds.length ≤ 2 ∧ ∀ x ∈ ds, x.addr.toNat < 0x2000

/-- R30, R21: no instruction reads the interrupt-enable latch or slot 6: two states that differ only there take the same
step, but for the latch and slot 6 themselves. -/
def Obligations.LatchAndSlotSixAreNotRead : Prop :=
  ∀ (s t : State) (b : Bool) (v : Byte), step s = .next t →
    ∃ t' : State, step { s with inte := b, slot6 := v } = .next t' ∧ t'.slot6 = v ∧
      { t' with inte := t.inte, slot6 := t.slot6 } = t

/-! ### Interrupts, batches and the host

That interrupts, batches and the host's actions are operations beside `step` is the model's reading of R101, R310 and R330
(log entry 7). -/

/-- R311: an accepted request pushes pc through the memory port, goes to the vector, and clears the latch and the halted
state; nothing else changes. That it clears `halted` and reports no cycles are the spec's decisions D16 and D15. -/
def Obligations.InterruptDispatch : Prop :=
  ∀ (s : State) (v : Addr), s.inte = true → ∃ t : State, interrupt v s = .accepted t ∧
    Stores { s with diags := [] } t [(s.sp - 1, hiByte s.pc), (s.sp - 2, loByte s.pc)] ∧
    t = { s with mem := t.mem, diags := t.diags, pc := v, sp := s.sp - 2, inte := false, halted := false }

/-- R312: a request while the latch is clear is not accepted, and the host's action leaves the state unchanged. The loss of
the request is the spec's decision D14. -/
def Obligations.RequestWithLatchClearIsLost : Prop :=
  ∀ (s : State) (v : Vector), s.inte = false → hostAct (.interrupt v) s = (.notAccepted, s)

/-- R315, R342: with sp in [0x2002, 0x4001], a RET at once after a dispatch resumes the interrupted program: pc, sp, every
register and flag as before, with the latch clear. -/
def Obligations.InterruptThenReturn : Prop :=
  ∀ (s : State) (v : Addr), s.Inv → s.inte = true → 0x2002 ≤ s.sp.toNat → s.sp.toNat ≤ 0x4001 →
    ∃ t u : State, interrupt v s = .accepted t ∧ exec .ret t = .next u ∧
      u = { s with mem := t.mem, diags := [], inte := false, halted := false, cycles := u.cycles }

/-- R110, R111: a batch runs whole steps of a core that is not halted, one from the other, until their costs add up to N or
the core is halted: its total is the sum of their costs, its signals are theirs in order, its state is the last one's. It
ends Done with N <= total < N + 18, or Halted with total < N and the core halted; it never ends in a fault or a refusal.
Halted as a status and no carry from batch to batch are the spec's decisions D11 and D32. -/
def Obligations.BatchTotals : Prop :=
  ∀ (n : Nat) (s : State), 0 < n → ∃ ts : List State,
    StepsThrough s ts ∧ totalCost ts.dropLast < n ∧ (batch n s).state = ts.getLastD s ∧
    (batch n s).total = totalCost ts ∧ (batch n s).diags = ts.flatMap State.diags ∧
    (((batch n s).status = .done ∧ n ≤ (batch n s).total ∧ (batch n s).total < n + 18) ∨
      ((batch n s).status = .halted ∧ (batch n s).total < n ∧ (batch n s).state.halted = true))

/-- R111: a batch of 0 executes nothing, and a batch of a halted core returns (0, Halted). -/
def Obligations.EmptyBatches : Prop :=
  ∀ s : State, batch 0 s = { total := 0, status := .done, diags := [], state := s } ∧
    ∀ n : Nat, 0 < n → s.halted = true → batch n s = { total := 0, status := .halted, diags := [], state := s }

/-- R332: once the core is halted with interrupts disabled, no action of the host changes anything but the DIP-switch
registers, and it stays so after any number of actions. -/
def Obligations.HaltedWithLatchClearIsFinal : Prop :=
  ∀ (acts : List HostAction) (s : State), s.halted = true → s.inte = false →
    ∃ v1 v2 : Byte, acts.foldl (fun u act => (hostAct act u).2) s = { s with dip1 := v1, dip2 := v2 }

/-- R57, R331, R341: a launch with four banks of 0x800 bytes starts the core at its reset values with bank k in
[0x800 * k, 0x800 * (k + 1)) and the given start values from 0x2000 on; any other ROM load starts nothing. That INIT_MEM is
a list of which at most 0xE000 bytes count, and that a failed ROM load gives no state, are the model's choice (log entry 13);
so are the parameters, the draws counter, and the cost and signals as fields of State, which start as in State.reset (log
entries 3, 4 and 5). -/
def Obligations.LaunchLoadsRomAndMemory : Prop :=
  ∀ p : Launch,
    (p.romBanks.length = 4 ∧ (∀ bank ∈ p.romBanks, bank.length = 0x800) →
      ∃ s : State, launch p = some s ∧ s.Inv ∧
        s = { State.reset with mem := s.mem, cfg := p.cfg, dip1 := p.dip1, dip2 := p.dip2, shift := p.shift, offset := p.offset } ∧
        (∀ k < 4, ∀ j < 0x800, s.mem.read (0x800 * k + j) = (p.romBanks.getD k []).getD j 0) ∧
        ∀ j < 0xE000, j < p.initMem.length → s.mem.read (0x2000 + j) = p.initMem.getD j 0) ∧
    (¬(p.romBanks.length = 4 ∧ ∀ bank ∈ p.romBanks, bank.length = 0x800) → launch p = none)
end

