-- ==== Sys2Proof/Laws/State.lean ====
section
/-! SUPPORT. One lemma for each field of State and each update of it, so that no later proof unfolds a record update. -/

namespace Sys2Proof.Machine

/-! ### `State.setReg` -/

@[simp] theorem State.setReg_slot6 (s : State) (r : Reg) (v : Byte) : (s.setReg r v).slot6 = s.slot6 := by cases r <;> rfl
@[simp] theorem State.setReg_pc (s : State) (r : Reg) (v : Byte) : (s.setReg r v).pc = s.pc := by cases r <;> rfl
@[simp] theorem State.setReg_sp (s : State) (r : Reg) (v : Byte) : (s.setReg r v).sp = s.sp := by cases r <;> rfl
@[simp] theorem State.setReg_flags (s : State) (r : Reg) (v : Byte) : (s.setReg r v).flags = s.flags := by cases r <;> rfl
@[simp] theorem State.setReg_inte (s : State) (r : Reg) (v : Byte) : (s.setReg r v).inte = s.inte := by cases r <;> rfl
@[simp] theorem State.setReg_halted (s : State) (r : Reg) (v : Byte) : (s.setReg r v).halted = s.halted := by cases r <;> rfl
@[simp] theorem State.setReg_mem (s : State) (r : Reg) (v : Byte) : (s.setReg r v).mem = s.mem := by cases r <;> rfl
@[simp] theorem State.setReg_dip1 (s : State) (r : Reg) (v : Byte) : (s.setReg r v).dip1 = s.dip1 := by cases r <;> rfl
@[simp] theorem State.setReg_dip2 (s : State) (r : Reg) (v : Byte) : (s.setReg r v).dip2 = s.dip2 := by cases r <;> rfl
@[simp] theorem State.setReg_shift (s : State) (r : Reg) (v : Byte) : (s.setReg r v).shift = s.shift := by cases r <;> rfl
@[simp] theorem State.setReg_offset (s : State) (r : Reg) (v : Byte) : (s.setReg r v).offset = s.offset := by cases r <;> rfl
@[simp] theorem State.setReg_cycles (s : State) (r : Reg) (v : Byte) : (s.setReg r v).cycles = s.cycles := by cases r <;> rfl
@[simp] theorem State.setReg_diags (s : State) (r : Reg) (v : Byte) : (s.setReg r v).diags = s.diags := by cases r <;> rfl
@[simp] theorem State.setReg_draws (s : State) (r : Reg) (v : Byte) : (s.setReg r v).draws = s.draws := by cases r <;> rfl
@[simp] theorem State.setReg_cfg (s : State) (r : Reg) (v : Byte) : (s.setReg r v).cfg = s.cfg := by cases r <;> rfl

/-! ### `State.setPair` -/

@[simp] theorem State.setPair_a (s : State) (p : Pair) (v : Addr) : (s.setPair p v).a = s.a := by cases p <;> rfl
@[simp] theorem State.setPair_slot6 (s : State) (p : Pair) (v : Addr) : (s.setPair p v).slot6 = s.slot6 := by cases p <;> rfl
@[simp] theorem State.setPair_pc (s : State) (p : Pair) (v : Addr) : (s.setPair p v).pc = s.pc := by cases p <;> rfl
@[simp] theorem State.setPair_flags (s : State) (p : Pair) (v : Addr) : (s.setPair p v).flags = s.flags := by cases p <;> rfl
@[simp] theorem State.setPair_inte (s : State) (p : Pair) (v : Addr) : (s.setPair p v).inte = s.inte := by cases p <;> rfl
@[simp] theorem State.setPair_halted (s : State) (p : Pair) (v : Addr) : (s.setPair p v).halted = s.halted := by cases p <;> rfl
@[simp] theorem State.setPair_mem (s : State) (p : Pair) (v : Addr) : (s.setPair p v).mem = s.mem := by cases p <;> rfl
@[simp] theorem State.setPair_dip1 (s : State) (p : Pair) (v : Addr) : (s.setPair p v).dip1 = s.dip1 := by cases p <;> rfl
@[simp] theorem State.setPair_dip2 (s : State) (p : Pair) (v : Addr) : (s.setPair p v).dip2 = s.dip2 := by cases p <;> rfl
@[simp] theorem State.setPair_shift (s : State) (p : Pair) (v : Addr) : (s.setPair p v).shift = s.shift := by cases p <;> rfl
@[simp] theorem State.setPair_offset (s : State) (p : Pair) (v : Addr) : (s.setPair p v).offset = s.offset := by cases p <;> rfl
@[simp] theorem State.setPair_cycles (s : State) (p : Pair) (v : Addr) : (s.setPair p v).cycles = s.cycles := by cases p <;> rfl
@[simp] theorem State.setPair_diags (s : State) (p : Pair) (v : Addr) : (s.setPair p v).diags = s.diags := by cases p <;> rfl
@[simp] theorem State.setPair_draws (s : State) (p : Pair) (v : Addr) : (s.setPair p v).draws = s.draws := by cases p <;> rfl
@[simp] theorem State.setPair_cfg (s : State) (p : Pair) (v : Addr) : (s.setPair p v).cfg = s.cfg := by cases p <;> rfl

/-! ### `State.memWrite` -/

@[simp] theorem State.memWrite_b (s : State) (x : Addr) (v : Byte) : (s.memWrite x v).b = s.b := by unfold State.memWrite; split <;> rfl
@[simp] theorem State.memWrite_c (s : State) (x : Addr) (v : Byte) : (s.memWrite x v).c = s.c := by unfold State.memWrite; split <;> rfl
@[simp] theorem State.memWrite_d (s : State) (x : Addr) (v : Byte) : (s.memWrite x v).d = s.d := by unfold State.memWrite; split <;> rfl
@[simp] theorem State.memWrite_e (s : State) (x : Addr) (v : Byte) : (s.memWrite x v).e = s.e := by unfold State.memWrite; split <;> rfl
@[simp] theorem State.memWrite_h (s : State) (x : Addr) (v : Byte) : (s.memWrite x v).h = s.h := by unfold State.memWrite; split <;> rfl
@[simp] theorem State.memWrite_l (s : State) (x : Addr) (v : Byte) : (s.memWrite x v).l = s.l := by unfold State.memWrite; split <;> rfl
@[simp] theorem State.memWrite_a (s : State) (x : Addr) (v : Byte) : (s.memWrite x v).a = s.a := by unfold State.memWrite; split <;> rfl
@[simp] theorem State.memWrite_slot6 (s : State) (x : Addr) (v : Byte) : (s.memWrite x v).slot6 = s.slot6 := by unfold State.memWrite; split <;> rfl
@[simp] theorem State.memWrite_pc (s : State) (x : Addr) (v : Byte) : (s.memWrite x v).pc = s.pc := by unfold State.memWrite; split <;> rfl
@[simp] theorem State.memWrite_sp (s : State) (x : Addr) (v : Byte) : (s.memWrite x v).sp = s.sp := by unfold State.memWrite; split <;> rfl
@[simp] theorem State.memWrite_flags (s : State) (x : Addr) (v : Byte) : (s.memWrite x v).flags = s.flags := by unfold State.memWrite; split <;> rfl
@[simp] theorem State.memWrite_inte (s : State) (x : Addr) (v : Byte) : (s.memWrite x v).inte = s.inte := by unfold State.memWrite; split <;> rfl
@[simp] theorem State.memWrite_halted (s : State) (x : Addr) (v : Byte) : (s.memWrite x v).halted = s.halted := by unfold State.memWrite; split <;> rfl
@[simp] theorem State.memWrite_dip1 (s : State) (x : Addr) (v : Byte) : (s.memWrite x v).dip1 = s.dip1 := by unfold State.memWrite; split <;> rfl
@[simp] theorem State.memWrite_dip2 (s : State) (x : Addr) (v : Byte) : (s.memWrite x v).dip2 = s.dip2 := by unfold State.memWrite; split <;> rfl
@[simp] theorem State.memWrite_shift (s : State) (x : Addr) (v : Byte) : (s.memWrite x v).shift = s.shift := by unfold State.memWrite; split <;> rfl
@[simp] theorem State.memWrite_offset (s : State) (x : Addr) (v : Byte) : (s.memWrite x v).offset = s.offset := by unfold State.memWrite; split <;> rfl
@[simp] theorem State.memWrite_cycles (s : State) (x : Addr) (v : Byte) : (s.memWrite x v).cycles = s.cycles := by unfold State.memWrite; split <;> rfl
@[simp] theorem State.memWrite_draws (s : State) (x : Addr) (v : Byte) : (s.memWrite x v).draws = s.draws := by unfold State.memWrite; split <;> rfl
@[simp] theorem State.memWrite_cfg (s : State) (x : Addr) (v : Byte) : (s.memWrite x v).cfg = s.cfg := by unfold State.memWrite; split <;> rfl

/-! ### `State.load` -/

@[simp] theorem State.load_b (s : State) (k : Nat) (v : Byte) : (s.load k v).b = s.b := rfl
@[simp] theorem State.load_c (s : State) (k : Nat) (v : Byte) : (s.load k v).c = s.c := rfl
@[simp] theorem State.load_d (s : State) (k : Nat) (v : Byte) : (s.load k v).d = s.d := rfl
@[simp] theorem State.load_e (s : State) (k : Nat) (v : Byte) : (s.load k v).e = s.e := rfl
@[simp] theorem State.load_h (s : State) (k : Nat) (v : Byte) : (s.load k v).h = s.h := rfl
@[simp] theorem State.load_l (s : State) (k : Nat) (v : Byte) : (s.load k v).l = s.l := rfl
@[simp] theorem State.load_a (s : State) (k : Nat) (v : Byte) : (s.load k v).a = s.a := rfl
@[simp] theorem State.load_slot6 (s : State) (k : Nat) (v : Byte) : (s.load k v).slot6 = s.slot6 := rfl
@[simp] theorem State.load_pc (s : State) (k : Nat) (v : Byte) : (s.load k v).pc = s.pc := rfl
@[simp] theorem State.load_sp (s : State) (k : Nat) (v : Byte) : (s.load k v).sp = s.sp := rfl
@[simp] theorem State.load_flags (s : State) (k : Nat) (v : Byte) : (s.load k v).flags = s.flags := rfl
@[simp] theorem State.load_inte (s : State) (k : Nat) (v : Byte) : (s.load k v).inte = s.inte := rfl
@[simp] theorem State.load_halted (s : State) (k : Nat) (v : Byte) : (s.load k v).halted = s.halted := rfl
@[simp] theorem State.load_dip1 (s : State) (k : Nat) (v : Byte) : (s.load k v).dip1 = s.dip1 := rfl
@[simp] theorem State.load_dip2 (s : State) (k : Nat) (v : Byte) : (s.load k v).dip2 = s.dip2 := rfl
@[simp] theorem State.load_shift (s : State) (k : Nat) (v : Byte) : (s.load k v).shift = s.shift := rfl
@[simp] theorem State.load_offset (s : State) (k : Nat) (v : Byte) : (s.load k v).offset = s.offset := rfl
@[simp] theorem State.load_cycles (s : State) (k : Nat) (v : Byte) : (s.load k v).cycles = s.cycles := rfl
@[simp] theorem State.load_diags (s : State) (k : Nat) (v : Byte) : (s.load k v).diags = s.diags := rfl
@[simp] theorem State.load_draws (s : State) (k : Nat) (v : Byte) : (s.load k v).draws = s.draws := rfl
@[simp] theorem State.load_cfg (s : State) (k : Nat) (v : Byte) : (s.load k v).cfg = s.cfg := rfl
@[simp] theorem State.load_mem (s : State) (k : Nat) (v : Byte) : (s.load k v).mem = s.mem.write k v := rfl

/-! ### `State.memWrite16` -/

@[simp] theorem State.memWrite16_b (s : State) (x v : Addr) : (s.memWrite16 x v).b = s.b := by simp [State.memWrite16]
@[simp] theorem State.memWrite16_c (s : State) (x v : Addr) : (s.memWrite16 x v).c = s.c := by simp [State.memWrite16]
@[simp] theorem State.memWrite16_d (s : State) (x v : Addr) : (s.memWrite16 x v).d = s.d := by simp [State.memWrite16]
@[simp] theorem State.memWrite16_e (s : State) (x v : Addr) : (s.memWrite16 x v).e = s.e := by simp [State.memWrite16]
@[simp] theorem State.memWrite16_h (s : State) (x v : Addr) : (s.memWrite16 x v).h = s.h := by simp [State.memWrite16]
@[simp] theorem State.memWrite16_l (s : State) (x v : Addr) : (s.memWrite16 x v).l = s.l := by simp [State.memWrite16]
@[simp] theorem State.memWrite16_a (s : State) (x v : Addr) : (s.memWrite16 x v).a = s.a := by simp [State.memWrite16]
@[simp] theorem State.memWrite16_slot6 (s : State) (x v : Addr) : (s.memWrite16 x v).slot6 = s.slot6 := by simp [State.memWrite16]
@[simp] theorem State.memWrite16_pc (s : State) (x v : Addr) : (s.memWrite16 x v).pc = s.pc := by simp [State.memWrite16]
@[simp] theorem State.memWrite16_sp (s : State) (x v : Addr) : (s.memWrite16 x v).sp = s.sp := by simp [State.memWrite16]
@[simp] theorem State.memWrite16_flags (s : State) (x v : Addr) : (s.memWrite16 x v).flags = s.flags := by simp [State.memWrite16]
@[simp] theorem State.memWrite16_inte (s : State) (x v : Addr) : (s.memWrite16 x v).inte = s.inte := by simp [State.memWrite16]
@[simp] theorem State.memWrite16_halted (s : State) (x v : Addr) : (s.memWrite16 x v).halted = s.halted := by simp [State.memWrite16]
@[simp] theorem State.memWrite16_dip1 (s : State) (x v : Addr) : (s.memWrite16 x v).dip1 = s.dip1 := by simp [State.memWrite16]
@[simp] theorem State.memWrite16_dip2 (s : State) (x v : Addr) : (s.memWrite16 x v).dip2 = s.dip2 := by simp [State.memWrite16]
@[simp] theorem State.memWrite16_shift (s : State) (x v : Addr) : (s.memWrite16 x v).shift = s.shift := by simp [State.memWrite16]
@[simp] theorem State.memWrite16_offset (s : State) (x v : Addr) : (s.memWrite16 x v).offset = s.offset := by simp [State.memWrite16]
@[simp] theorem State.memWrite16_cycles (s : State) (x v : Addr) : (s.memWrite16 x v).cycles = s.cycles := by simp [State.memWrite16]
@[simp] theorem State.memWrite16_draws (s : State) (x v : Addr) : (s.memWrite16 x v).draws = s.draws := by simp [State.memWrite16]
@[simp] theorem State.memWrite16_cfg (s : State) (x v : Addr) : (s.memWrite16 x v).cfg = s.cfg := by simp [State.memWrite16]

/-! ### `State.push16` -/

@[simp] theorem State.push16_b (s : State) (v : Addr) : (s.push16 v).b = s.b := by simp [State.push16]
@[simp] theorem State.push16_c (s : State) (v : Addr) : (s.push16 v).c = s.c := by simp [State.push16]
@[simp] theorem State.push16_d (s : State) (v : Addr) : (s.push16 v).d = s.d := by simp [State.push16]
@[simp] theorem State.push16_e (s : State) (v : Addr) : (s.push16 v).e = s.e := by simp [State.push16]
@[simp] theorem State.push16_h (s : State) (v : Addr) : (s.push16 v).h = s.h := by simp [State.push16]
@[simp] theorem State.push16_l (s : State) (v : Addr) : (s.push16 v).l = s.l := by simp [State.push16]
@[simp] theorem State.push16_a (s : State) (v : Addr) : (s.push16 v).a = s.a := by simp [State.push16]
@[simp] theorem State.push16_slot6 (s : State) (v : Addr) : (s.push16 v).slot6 = s.slot6 := by simp [State.push16]
@[simp] theorem State.push16_pc (s : State) (v : Addr) : (s.push16 v).pc = s.pc := by simp [State.push16]
@[simp] theorem State.push16_flags (s : State) (v : Addr) : (s.push16 v).flags = s.flags := by simp [State.push16]
@[simp] theorem State.push16_inte (s : State) (v : Addr) : (s.push16 v).inte = s.inte := by simp [State.push16]
@[simp] theorem State.push16_halted (s : State) (v : Addr) : (s.push16 v).halted = s.halted := by simp [State.push16]
@[simp] theorem State.push16_dip1 (s : State) (v : Addr) : (s.push16 v).dip1 = s.dip1 := by simp [State.push16]
@[simp] theorem State.push16_dip2 (s : State) (v : Addr) : (s.push16 v).dip2 = s.dip2 := by simp [State.push16]
@[simp] theorem State.push16_shift (s : State) (v : Addr) : (s.push16 v).shift = s.shift := by simp [State.push16]
@[simp] theorem State.push16_offset (s : State) (v : Addr) : (s.push16 v).offset = s.offset := by simp [State.push16]
@[simp] theorem State.push16_cycles (s : State) (v : Addr) : (s.push16 v).cycles = s.cycles := by simp [State.push16]
@[simp] theorem State.push16_draws (s : State) (v : Addr) : (s.push16 v).draws = s.draws := by simp [State.push16]
@[simp] theorem State.push16_cfg (s : State) (v : Addr) : (s.push16 v).cfg = s.cfg := by simp [State.push16]
@[simp] theorem State.push16_sp (s : State) (v : Addr) : (s.push16 v).sp = s.sp - 2 := rfl

/-! ### `State.dropTop` -/

@[simp] theorem State.dropTop_b (s : State) : s.dropTop.b = s.b := rfl
@[simp] theorem State.dropTop_c (s : State) : s.dropTop.c = s.c := rfl
@[simp] theorem State.dropTop_d (s : State) : s.dropTop.d = s.d := rfl
@[simp] theorem State.dropTop_e (s : State) : s.dropTop.e = s.e := rfl
@[simp] theorem State.dropTop_h (s : State) : s.dropTop.h = s.h := rfl
@[simp] theorem State.dropTop_l (s : State) : s.dropTop.l = s.l := rfl
@[simp] theorem State.dropTop_a (s : State) : s.dropTop.a = s.a := rfl
@[simp] theorem State.dropTop_slot6 (s : State) : s.dropTop.slot6 = s.slot6 := rfl
@[simp] theorem State.dropTop_pc (s : State) : s.dropTop.pc = s.pc := rfl
@[simp] theorem State.dropTop_flags (s : State) : s.dropTop.flags = s.flags := rfl
@[simp] theorem State.dropTop_inte (s : State) : s.dropTop.inte = s.inte := rfl
@[simp] theorem State.dropTop_halted (s : State) : s.dropTop.halted = s.halted := rfl
@[simp] theorem State.dropTop_mem (s : State) : s.dropTop.mem = s.mem := rfl
@[simp] theorem State.dropTop_dip1 (s : State) : s.dropTop.dip1 = s.dip1 := rfl
@[simp] theorem State.dropTop_dip2 (s : State) : s.dropTop.dip2 = s.dip2 := rfl
@[simp] theorem State.dropTop_shift (s : State) : s.dropTop.shift = s.shift := rfl
@[simp] theorem State.dropTop_offset (s : State) : s.dropTop.offset = s.offset := rfl
@[simp] theorem State.dropTop_cycles (s : State) : s.dropTop.cycles = s.cycles := rfl
@[simp] theorem State.dropTop_diags (s : State) : s.dropTop.diags = s.diags := rfl
@[simp] theorem State.dropTop_draws (s : State) : s.dropTop.draws = s.draws := rfl
@[simp] theorem State.dropTop_cfg (s : State) : s.dropTop.cfg = s.cfg := rfl
@[simp] theorem State.dropTop_sp (s : State) : s.dropTop.sp = s.sp + 2 := rfl

/-! ### `State.jump` -/

@[simp] theorem State.jump_b (s : State) (x : Addr) (n : Nat) : (s.jump x n).b = s.b := rfl
@[simp] theorem State.jump_c (s : State) (x : Addr) (n : Nat) : (s.jump x n).c = s.c := rfl
@[simp] theorem State.jump_d (s : State) (x : Addr) (n : Nat) : (s.jump x n).d = s.d := rfl
@[simp] theorem State.jump_e (s : State) (x : Addr) (n : Nat) : (s.jump x n).e = s.e := rfl
@[simp] theorem State.jump_h (s : State) (x : Addr) (n : Nat) : (s.jump x n).h = s.h := rfl
@[simp] theorem State.jump_l (s : State) (x : Addr) (n : Nat) : (s.jump x n).l = s.l := rfl
@[simp] theorem State.jump_a (s : State) (x : Addr) (n : Nat) : (s.jump x n).a = s.a := rfl
@[simp] theorem State.jump_slot6 (s : State) (x : Addr) (n : Nat) : (s.jump x n).slot6 = s.slot6 := rfl
@[simp] theorem State.jump_sp (s : State) (x : Addr) (n : Nat) : (s.jump x n).sp = s.sp := rfl
@[simp] theorem State.jump_flags (s : State) (x : Addr) (n : Nat) : (s.jump x n).flags = s.flags := rfl
@[simp] theorem State.jump_inte (s : State) (x : Addr) (n : Nat) : (s.jump x n).inte = s.inte := rfl
@[simp] theorem State.jump_halted (s : State) (x : Addr) (n : Nat) : (s.jump x n).halted = s.halted := rfl
@[simp] theorem State.jump_mem (s : State) (x : Addr) (n : Nat) : (s.jump x n).mem = s.mem := rfl
@[simp] theorem State.jump_dip1 (s : State) (x : Addr) (n : Nat) : (s.jump x n).dip1 = s.dip1 := rfl
@[simp] theorem State.jump_dip2 (s : State) (x : Addr) (n : Nat) : (s.jump x n).dip2 = s.dip2 := rfl
@[simp] theorem State.jump_shift (s : State) (x : Addr) (n : Nat) : (s.jump x n).shift = s.shift := rfl
@[simp] theorem State.jump_offset (s : State) (x : Addr) (n : Nat) : (s.jump x n).offset = s.offset := rfl
@[simp] theorem State.jump_diags (s : State) (x : Addr) (n : Nat) : (s.jump x n).diags = s.diags := rfl
@[simp] theorem State.jump_draws (s : State) (x : Addr) (n : Nat) : (s.jump x n).draws = s.draws := rfl
@[simp] theorem State.jump_cfg (s : State) (x : Addr) (n : Nat) : (s.jump x n).cfg = s.cfg := rfl
@[simp] theorem State.jump_pc (s : State) (x : Addr) (n : Nat) : (s.jump x n).pc = x := rfl
@[simp] theorem State.jump_cycles (s : State) (x : Addr) (n : Nat) : (s.jump x n).cycles = n := rfl

/-! ### `State.retire` -/

@[simp] theorem State.retire_b (s : State) (x : Addr) (n : Nat) : (s.retire x n).b = s.b := rfl
@[simp] theorem State.retire_c (s : State) (x : Addr) (n : Nat) : (s.retire x n).c = s.c := rfl
@[simp] theorem State.retire_d (s : State) (x : Addr) (n : Nat) : (s.retire x n).d = s.d := rfl
@[simp] theorem State.retire_e (s : State) (x : Addr) (n : Nat) : (s.retire x n).e = s.e := rfl
@[simp] theorem State.retire_h (s : State) (x : Addr) (n : Nat) : (s.retire x n).h = s.h := rfl
@[simp] theorem State.retire_l (s : State) (x : Addr) (n : Nat) : (s.retire x n).l = s.l := rfl
@[simp] theorem State.retire_a (s : State) (x : Addr) (n : Nat) : (s.retire x n).a = s.a := rfl
@[simp] theorem State.retire_slot6 (s : State) (x : Addr) (n : Nat) : (s.retire x n).slot6 = s.slot6 := rfl
@[simp] theorem State.retire_sp (s : State) (x : Addr) (n : Nat) : (s.retire x n).sp = s.sp := rfl
@[simp] theorem State.retire_flags (s : State) (x : Addr) (n : Nat) : (s.retire x n).flags = s.flags := rfl
@[simp] theorem State.retire_inte (s : State) (x : Addr) (n : Nat) : (s.retire x n).inte = s.inte := rfl
@[simp] theorem State.retire_halted (s : State) (x : Addr) (n : Nat) : (s.retire x n).halted = s.halted := rfl
@[simp] theorem State.retire_mem (s : State) (x : Addr) (n : Nat) : (s.retire x n).mem = s.mem := rfl
@[simp] theorem State.retire_dip1 (s : State) (x : Addr) (n : Nat) : (s.retire x n).dip1 = s.dip1 := rfl
@[simp] theorem State.retire_dip2 (s : State) (x : Addr) (n : Nat) : (s.retire x n).dip2 = s.dip2 := rfl
@[simp] theorem State.retire_shift (s : State) (x : Addr) (n : Nat) : (s.retire x n).shift = s.shift := rfl
@[simp] theorem State.retire_offset (s : State) (x : Addr) (n : Nat) : (s.retire x n).offset = s.offset := rfl
@[simp] theorem State.retire_diags (s : State) (x : Addr) (n : Nat) : (s.retire x n).diags = s.diags := rfl
@[simp] theorem State.retire_draws (s : State) (x : Addr) (n : Nat) : (s.retire x n).draws = s.draws := rfl
@[simp] theorem State.retire_cfg (s : State) (x : Addr) (n : Nat) : (s.retire x n).cfg = s.cfg := rfl
@[simp] theorem State.retire_pc (s : State) (x : Addr) (n : Nat) : (s.retire x n).pc = s.pc + x := rfl
@[simp] theorem State.retire_cycles (s : State) (x : Addr) (n : Nat) : (s.retire x n).cycles = n := rfl

/-! ### `State.setA` -/

@[simp] theorem State.setA_b (s : State) (r : AluResult) : (s.setA r).b = s.b := rfl
@[simp] theorem State.setA_c (s : State) (r : AluResult) : (s.setA r).c = s.c := rfl
@[simp] theorem State.setA_d (s : State) (r : AluResult) : (s.setA r).d = s.d := rfl
@[simp] theorem State.setA_e (s : State) (r : AluResult) : (s.setA r).e = s.e := rfl
@[simp] theorem State.setA_h (s : State) (r : AluResult) : (s.setA r).h = s.h := rfl
@[simp] theorem State.setA_l (s : State) (r : AluResult) : (s.setA r).l = s.l := rfl
@[simp] theorem State.setA_slot6 (s : State) (r : AluResult) : (s.setA r).slot6 = s.slot6 := rfl
@[simp] theorem State.setA_pc (s : State) (r : AluResult) : (s.setA r).pc = s.pc := rfl
@[simp] theorem State.setA_sp (s : State) (r : AluResult) : (s.setA r).sp = s.sp := rfl
@[simp] theorem State.setA_inte (s : State) (r : AluResult) : (s.setA r).inte = s.inte := rfl
@[simp] theorem State.setA_halted (s : State) (r : AluResult) : (s.setA r).halted = s.halted := rfl
@[simp] theorem State.setA_mem (s : State) (r : AluResult) : (s.setA r).mem = s.mem := rfl
@[simp] theorem State.setA_dip1 (s : State) (r : AluResult) : (s.setA r).dip1 = s.dip1 := rfl
@[simp] theorem State.setA_dip2 (s : State) (r : AluResult) : (s.setA r).dip2 = s.dip2 := rfl
@[simp] theorem State.setA_shift (s : State) (r : AluResult) : (s.setA r).shift = s.shift := rfl
@[simp] theorem State.setA_offset (s : State) (r : AluResult) : (s.setA r).offset = s.offset := rfl
@[simp] theorem State.setA_cycles (s : State) (r : AluResult) : (s.setA r).cycles = s.cycles := rfl
@[simp] theorem State.setA_diags (s : State) (r : AluResult) : (s.setA r).diags = s.diags := rfl
@[simp] theorem State.setA_draws (s : State) (r : AluResult) : (s.setA r).draws = s.draws := rfl
@[simp] theorem State.setA_cfg (s : State) (r : AluResult) : (s.setA r).cfg = s.cfg := rfl
@[simp] theorem State.setA_a (s : State) (r : AluResult) : (s.setA r).a = r.value := rfl
@[simp] theorem State.setA_flags (s : State) (r : AluResult) : (s.setA r).flags = r.flags := rfl

/-! ### `State.setCy` -/

@[simp] theorem State.setCy_b (s : State) (x : Bool) : (s.setCy x).b = s.b := rfl
@[simp] theorem State.setCy_c (s : State) (x : Bool) : (s.setCy x).c = s.c := rfl
@[simp] theorem State.setCy_d (s : State) (x : Bool) : (s.setCy x).d = s.d := rfl
@[simp] theorem State.setCy_e (s : State) (x : Bool) : (s.setCy x).e = s.e := rfl
@[simp] theorem State.setCy_h (s : State) (x : Bool) : (s.setCy x).h = s.h := rfl
@[simp] theorem State.setCy_l (s : State) (x : Bool) : (s.setCy x).l = s.l := rfl
@[simp] theorem State.setCy_a (s : State) (x : Bool) : (s.setCy x).a = s.a := rfl
@[simp] theorem State.setCy_slot6 (s : State) (x : Bool) : (s.setCy x).slot6 = s.slot6 := rfl
@[simp] theorem State.setCy_pc (s : State) (x : Bool) : (s.setCy x).pc = s.pc := rfl
@[simp] theorem State.setCy_sp (s : State) (x : Bool) : (s.setCy x).sp = s.sp := rfl
@[simp] theorem State.setCy_inte (s : State) (x : Bool) : (s.setCy x).inte = s.inte := rfl
@[simp] theorem State.setCy_halted (s : State) (x : Bool) : (s.setCy x).halted = s.halted := rfl
@[simp] theorem State.setCy_mem (s : State) (x : Bool) : (s.setCy x).mem = s.mem := rfl
@[simp] theorem State.setCy_dip1 (s : State) (x : Bool) : (s.setCy x).dip1 = s.dip1 := rfl
@[simp] theorem State.setCy_dip2 (s : State) (x : Bool) : (s.setCy x).dip2 = s.dip2 := rfl
@[simp] theorem State.setCy_shift (s : State) (x : Bool) : (s.setCy x).shift = s.shift := rfl
@[simp] theorem State.setCy_offset (s : State) (x : Bool) : (s.setCy x).offset = s.offset := rfl
@[simp] theorem State.setCy_cycles (s : State) (x : Bool) : (s.setCy x).cycles = s.cycles := rfl
@[simp] theorem State.setCy_diags (s : State) (x : Bool) : (s.setCy x).diags = s.diags := rfl
@[simp] theorem State.setCy_draws (s : State) (x : Bool) : (s.setCy x).draws = s.draws := rfl
@[simp] theorem State.setCy_cfg (s : State) (x : Bool) : (s.setCy x).cfg = s.cfg := rfl
@[simp] theorem State.setCy_flags (s : State) (x : Bool) : (s.setCy x).flags = ⟨s.flags.s, s.flags.z, s.flags.ac, s.flags.p, x⟩ := rfl

/-! ### `State.beginStep` -/

@[simp] theorem State.beginStep_b (s : State) : s.beginStep.b = s.b := rfl
@[simp] theorem State.beginStep_c (s : State) : s.beginStep.c = s.c := rfl
@[simp] theorem State.beginStep_d (s : State) : s.beginStep.d = s.d := rfl
@[simp] theorem State.beginStep_e (s : State) : s.beginStep.e = s.e := rfl
@[simp] theorem State.beginStep_h (s : State) : s.beginStep.h = s.h := rfl
@[simp] theorem State.beginStep_l (s : State) : s.beginStep.l = s.l := rfl
@[simp] theorem State.beginStep_a (s : State) : s.beginStep.a = s.a := rfl
@[simp] theorem State.beginStep_slot6 (s : State) : s.beginStep.slot6 = s.slot6 := rfl
@[simp] theorem State.beginStep_pc (s : State) : s.beginStep.pc = s.pc := rfl
@[simp] theorem State.beginStep_sp (s : State) : s.beginStep.sp = s.sp := rfl
@[simp] theorem State.beginStep_flags (s : State) : s.beginStep.flags = s.flags := rfl
@[simp] theorem State.beginStep_inte (s : State) : s.beginStep.inte = s.inte := rfl
@[simp] theorem State.beginStep_halted (s : State) : s.beginStep.halted = s.halted := rfl
@[simp] theorem State.beginStep_mem (s : State) : s.beginStep.mem = s.mem := rfl
@[simp] theorem State.beginStep_dip1 (s : State) : s.beginStep.dip1 = s.dip1 := rfl
@[simp] theorem State.beginStep_dip2 (s : State) : s.beginStep.dip2 = s.dip2 := rfl
@[simp] theorem State.beginStep_shift (s : State) : s.beginStep.shift = s.shift := rfl
@[simp] theorem State.beginStep_offset (s : State) : s.beginStep.offset = s.offset := rfl
@[simp] theorem State.beginStep_cycles (s : State) : s.beginStep.cycles = s.cycles := rfl
@[simp] theorem State.beginStep_draws (s : State) : s.beginStep.draws = s.draws := rfl
@[simp] theorem State.beginStep_cfg (s : State) : s.beginStep.cfg = s.cfg := rfl
@[simp] theorem State.beginStep_diags (s : State) : s.beginStep.diags = [] := rfl

/-! ### `State.setDips` -/

@[simp] theorem State.setDips_b (s : State) (v w : Byte) : (s.setDips v w).b = s.b := rfl
@[simp] theorem State.setDips_c (s : State) (v w : Byte) : (s.setDips v w).c = s.c := rfl
@[simp] theorem State.setDips_d (s : State) (v w : Byte) : (s.setDips v w).d = s.d := rfl
@[simp] theorem State.setDips_e (s : State) (v w : Byte) : (s.setDips v w).e = s.e := rfl
@[simp] theorem State.setDips_h (s : State) (v w : Byte) : (s.setDips v w).h = s.h := rfl
@[simp] theorem State.setDips_l (s : State) (v w : Byte) : (s.setDips v w).l = s.l := rfl
@[simp] theorem State.setDips_a (s : State) (v w : Byte) : (s.setDips v w).a = s.a := rfl
@[simp] theorem State.setDips_slot6 (s : State) (v w : Byte) : (s.setDips v w).slot6 = s.slot6 := rfl
@[simp] theorem State.setDips_pc (s : State) (v w : Byte) : (s.setDips v w).pc = s.pc := rfl
@[simp] theorem State.setDips_sp (s : State) (v w : Byte) : (s.setDips v w).sp = s.sp := rfl
@[simp] theorem State.setDips_flags (s : State) (v w : Byte) : (s.setDips v w).flags = s.flags := rfl
@[simp] theorem State.setDips_inte (s : State) (v w : Byte) : (s.setDips v w).inte = s.inte := rfl
@[simp] theorem State.setDips_halted (s : State) (v w : Byte) : (s.setDips v w).halted = s.halted := rfl
@[simp] theorem State.setDips_mem (s : State) (v w : Byte) : (s.setDips v w).mem = s.mem := rfl
@[simp] theorem State.setDips_shift (s : State) (v w : Byte) : (s.setDips v w).shift = s.shift := rfl
@[simp] theorem State.setDips_offset (s : State) (v w : Byte) : (s.setDips v w).offset = s.offset := rfl
@[simp] theorem State.setDips_cycles (s : State) (v w : Byte) : (s.setDips v w).cycles = s.cycles := rfl
@[simp] theorem State.setDips_diags (s : State) (v w : Byte) : (s.setDips v w).diags = s.diags := rfl
@[simp] theorem State.setDips_draws (s : State) (v w : Byte) : (s.setDips v w).draws = s.draws := rfl
@[simp] theorem State.setDips_cfg (s : State) (v w : Byte) : (s.setDips v w).cfg = s.cfg := rfl

/-! ### `State.writeM` -/

@[simp] theorem State.writeM_b (s : State) (v : Byte) : (s.writeM v).b = s.b := State.memWrite_b _ _ _
@[simp] theorem State.writeM_c (s : State) (v : Byte) : (s.writeM v).c = s.c := State.memWrite_c _ _ _
@[simp] theorem State.writeM_d (s : State) (v : Byte) : (s.writeM v).d = s.d := State.memWrite_d _ _ _
@[simp] theorem State.writeM_e (s : State) (v : Byte) : (s.writeM v).e = s.e := State.memWrite_e _ _ _
@[simp] theorem State.writeM_h (s : State) (v : Byte) : (s.writeM v).h = s.h := State.memWrite_h _ _ _
@[simp] theorem State.writeM_l (s : State) (v : Byte) : (s.writeM v).l = s.l := State.memWrite_l _ _ _
@[simp] theorem State.writeM_a (s : State) (v : Byte) : (s.writeM v).a = s.a := State.memWrite_a _ _ _
@[simp] theorem State.writeM_slot6 (s : State) (v : Byte) : (s.writeM v).slot6 = s.slot6 := State.memWrite_slot6 _ _ _
@[simp] theorem State.writeM_pc (s : State) (v : Byte) : (s.writeM v).pc = s.pc := State.memWrite_pc _ _ _
@[simp] theorem State.writeM_sp (s : State) (v : Byte) : (s.writeM v).sp = s.sp := State.memWrite_sp _ _ _
@[simp] theorem State.writeM_flags (s : State) (v : Byte) : (s.writeM v).flags = s.flags := State.memWrite_flags _ _ _
@[simp] theorem State.writeM_inte (s : State) (v : Byte) : (s.writeM v).inte = s.inte := State.memWrite_inte _ _ _
@[simp] theorem State.writeM_halted (s : State) (v : Byte) : (s.writeM v).halted = s.halted := State.memWrite_halted _ _ _
@[simp] theorem State.writeM_dip1 (s : State) (v : Byte) : (s.writeM v).dip1 = s.dip1 := State.memWrite_dip1 _ _ _
@[simp] theorem State.writeM_dip2 (s : State) (v : Byte) : (s.writeM v).dip2 = s.dip2 := State.memWrite_dip2 _ _ _
@[simp] theorem State.writeM_shift (s : State) (v : Byte) : (s.writeM v).shift = s.shift := State.memWrite_shift _ _ _
@[simp] theorem State.writeM_offset (s : State) (v : Byte) : (s.writeM v).offset = s.offset := State.memWrite_offset _ _ _
@[simp] theorem State.writeM_cycles (s : State) (v : Byte) : (s.writeM v).cycles = s.cycles := State.memWrite_cycles _ _ _
@[simp] theorem State.writeM_draws (s : State) (v : Byte) : (s.writeM v).draws = s.draws := State.memWrite_draws _ _ _
@[simp] theorem State.writeM_cfg (s : State) (v : Byte) : (s.writeM v).cfg = s.cfg := State.memWrite_cfg _ _ _

/-! ### `State.aluAdd` -/

@[simp] theorem State.aluAdd_b (s : State) (x : Byte) (k : Bool) : (s.aluAdd x k).b = s.b := rfl
@[simp] theorem State.aluAdd_c (s : State) (x : Byte) (k : Bool) : (s.aluAdd x k).c = s.c := rfl
@[simp] theorem State.aluAdd_d (s : State) (x : Byte) (k : Bool) : (s.aluAdd x k).d = s.d := rfl
@[simp] theorem State.aluAdd_e (s : State) (x : Byte) (k : Bool) : (s.aluAdd x k).e = s.e := rfl
@[simp] theorem State.aluAdd_h (s : State) (x : Byte) (k : Bool) : (s.aluAdd x k).h = s.h := rfl
@[simp] theorem State.aluAdd_l (s : State) (x : Byte) (k : Bool) : (s.aluAdd x k).l = s.l := rfl
@[simp] theorem State.aluAdd_slot6 (s : State) (x : Byte) (k : Bool) : (s.aluAdd x k).slot6 = s.slot6 := rfl
@[simp] theorem State.aluAdd_pc (s : State) (x : Byte) (k : Bool) : (s.aluAdd x k).pc = s.pc := rfl
@[simp] theorem State.aluAdd_sp (s : State) (x : Byte) (k : Bool) : (s.aluAdd x k).sp = s.sp := rfl
@[simp] theorem State.aluAdd_inte (s : State) (x : Byte) (k : Bool) : (s.aluAdd x k).inte = s.inte := rfl
@[simp] theorem State.aluAdd_halted (s : State) (x : Byte) (k : Bool) : (s.aluAdd x k).halted = s.halted := rfl
@[simp] theorem State.aluAdd_mem (s : State) (x : Byte) (k : Bool) : (s.aluAdd x k).mem = s.mem := rfl
@[simp] theorem State.aluAdd_dip1 (s : State) (x : Byte) (k : Bool) : (s.aluAdd x k).dip1 = s.dip1 := rfl
@[simp] theorem State.aluAdd_dip2 (s : State) (x : Byte) (k : Bool) : (s.aluAdd x k).dip2 = s.dip2 := rfl
@[simp] theorem State.aluAdd_shift (s : State) (x : Byte) (k : Bool) : (s.aluAdd x k).shift = s.shift := rfl
@[simp] theorem State.aluAdd_offset (s : State) (x : Byte) (k : Bool) : (s.aluAdd x k).offset = s.offset := rfl
@[simp] theorem State.aluAdd_cycles (s : State) (x : Byte) (k : Bool) : (s.aluAdd x k).cycles = s.cycles := rfl
@[simp] theorem State.aluAdd_diags (s : State) (x : Byte) (k : Bool) : (s.aluAdd x k).diags = s.diags := rfl
@[simp] theorem State.aluAdd_draws (s : State) (x : Byte) (k : Bool) : (s.aluAdd x k).draws = s.draws := rfl
@[simp] theorem State.aluAdd_cfg (s : State) (x : Byte) (k : Bool) : (s.aluAdd x k).cfg = s.cfg := rfl

/-! ### `State.aluAnd` -/

@[simp] theorem State.aluAnd_b (s : State) (x : Byte) : (s.aluAnd x).b = s.b := rfl
@[simp] theorem State.aluAnd_c (s : State) (x : Byte) : (s.aluAnd x).c = s.c := rfl
@[simp] theorem State.aluAnd_d (s : State) (x : Byte) : (s.aluAnd x).d = s.d := rfl
@[simp] theorem State.aluAnd_e (s : State) (x : Byte) : (s.aluAnd x).e = s.e := rfl
@[simp] theorem State.aluAnd_h (s : State) (x : Byte) : (s.aluAnd x).h = s.h := rfl
@[simp] theorem State.aluAnd_l (s : State) (x : Byte) : (s.aluAnd x).l = s.l := rfl
@[simp] theorem State.aluAnd_slot6 (s : State) (x : Byte) : (s.aluAnd x).slot6 = s.slot6 := rfl
@[simp] theorem State.aluAnd_pc (s : State) (x : Byte) : (s.aluAnd x).pc = s.pc := rfl
@[simp] theorem State.aluAnd_sp (s : State) (x : Byte) : (s.aluAnd x).sp = s.sp := rfl
@[simp] theorem State.aluAnd_inte (s : State) (x : Byte) : (s.aluAnd x).inte = s.inte := rfl
@[simp] theorem State.aluAnd_halted (s : State) (x : Byte) : (s.aluAnd x).halted = s.halted := rfl
@[simp] theorem State.aluAnd_mem (s : State) (x : Byte) : (s.aluAnd x).mem = s.mem := rfl
@[simp] theorem State.aluAnd_dip1 (s : State) (x : Byte) : (s.aluAnd x).dip1 = s.dip1 := rfl
@[simp] theorem State.aluAnd_dip2 (s : State) (x : Byte) : (s.aluAnd x).dip2 = s.dip2 := rfl
@[simp] theorem State.aluAnd_shift (s : State) (x : Byte) : (s.aluAnd x).shift = s.shift := rfl
@[simp] theorem State.aluAnd_offset (s : State) (x : Byte) : (s.aluAnd x).offset = s.offset := rfl
@[simp] theorem State.aluAnd_cycles (s : State) (x : Byte) : (s.aluAnd x).cycles = s.cycles := rfl
@[simp] theorem State.aluAnd_diags (s : State) (x : Byte) : (s.aluAnd x).diags = s.diags := rfl
@[simp] theorem State.aluAnd_draws (s : State) (x : Byte) : (s.aluAnd x).draws = s.draws := rfl
@[simp] theorem State.aluAnd_cfg (s : State) (x : Byte) : (s.aluAnd x).cfg = s.cfg := rfl

/-! ### `State.aluXor` -/

@[simp] theorem State.aluXor_b (s : State) (x : Byte) : (s.aluXor x).b = s.b := rfl
@[simp] theorem State.aluXor_c (s : State) (x : Byte) : (s.aluXor x).c = s.c := rfl
@[simp] theorem State.aluXor_d (s : State) (x : Byte) : (s.aluXor x).d = s.d := rfl
@[simp] theorem State.aluXor_e (s : State) (x : Byte) : (s.aluXor x).e = s.e := rfl
@[simp] theorem State.aluXor_h (s : State) (x : Byte) : (s.aluXor x).h = s.h := rfl
@[simp] theorem State.aluXor_l (s : State) (x : Byte) : (s.aluXor x).l = s.l := rfl
@[simp] theorem State.aluXor_slot6 (s : State) (x : Byte) : (s.aluXor x).slot6 = s.slot6 := rfl
@[simp] theorem State.aluXor_pc (s : State) (x : Byte) : (s.aluXor x).pc = s.pc := rfl
@[simp] theorem State.aluXor_sp (s : State) (x : Byte) : (s.aluXor x).sp = s.sp := rfl
@[simp] theorem State.aluXor_inte (s : State) (x : Byte) : (s.aluXor x).inte = s.inte := rfl
@[simp] theorem State.aluXor_halted (s : State) (x : Byte) : (s.aluXor x).halted = s.halted := rfl
@[simp] theorem State.aluXor_mem (s : State) (x : Byte) : (s.aluXor x).mem = s.mem := rfl
@[simp] theorem State.aluXor_dip1 (s : State) (x : Byte) : (s.aluXor x).dip1 = s.dip1 := rfl
@[simp] theorem State.aluXor_dip2 (s : State) (x : Byte) : (s.aluXor x).dip2 = s.dip2 := rfl
@[simp] theorem State.aluXor_shift (s : State) (x : Byte) : (s.aluXor x).shift = s.shift := rfl
@[simp] theorem State.aluXor_offset (s : State) (x : Byte) : (s.aluXor x).offset = s.offset := rfl
@[simp] theorem State.aluXor_cycles (s : State) (x : Byte) : (s.aluXor x).cycles = s.cycles := rfl
@[simp] theorem State.aluXor_diags (s : State) (x : Byte) : (s.aluXor x).diags = s.diags := rfl
@[simp] theorem State.aluXor_draws (s : State) (x : Byte) : (s.aluXor x).draws = s.draws := rfl
@[simp] theorem State.aluXor_cfg (s : State) (x : Byte) : (s.aluXor x).cfg = s.cfg := rfl

/-! ### `State.aluOr` -/

@[simp] theorem State.aluOr_b (s : State) (x : Byte) : (s.aluOr x).b = s.b := rfl
@[simp] theorem State.aluOr_c (s : State) (x : Byte) : (s.aluOr x).c = s.c := rfl
@[simp] theorem State.aluOr_d (s : State) (x : Byte) : (s.aluOr x).d = s.d := rfl
@[simp] theorem State.aluOr_e (s : State) (x : Byte) : (s.aluOr x).e = s.e := rfl
@[simp] theorem State.aluOr_h (s : State) (x : Byte) : (s.aluOr x).h = s.h := rfl
@[simp] theorem State.aluOr_l (s : State) (x : Byte) : (s.aluOr x).l = s.l := rfl
@[simp] theorem State.aluOr_slot6 (s : State) (x : Byte) : (s.aluOr x).slot6 = s.slot6 := rfl
@[simp] theorem State.aluOr_pc (s : State) (x : Byte) : (s.aluOr x).pc = s.pc := rfl
@[simp] theorem State.aluOr_sp (s : State) (x : Byte) : (s.aluOr x).sp = s.sp := rfl
@[simp] theorem State.aluOr_inte (s : State) (x : Byte) : (s.aluOr x).inte = s.inte := rfl
@[simp] theorem State.aluOr_halted (s : State) (x : Byte) : (s.aluOr x).halted = s.halted := rfl
@[simp] theorem State.aluOr_mem (s : State) (x : Byte) : (s.aluOr x).mem = s.mem := rfl
@[simp] theorem State.aluOr_dip1 (s : State) (x : Byte) : (s.aluOr x).dip1 = s.dip1 := rfl
@[simp] theorem State.aluOr_dip2 (s : State) (x : Byte) : (s.aluOr x).dip2 = s.dip2 := rfl
@[simp] theorem State.aluOr_shift (s : State) (x : Byte) : (s.aluOr x).shift = s.shift := rfl
@[simp] theorem State.aluOr_offset (s : State) (x : Byte) : (s.aluOr x).offset = s.offset := rfl
@[simp] theorem State.aluOr_cycles (s : State) (x : Byte) : (s.aluOr x).cycles = s.cycles := rfl
@[simp] theorem State.aluOr_diags (s : State) (x : Byte) : (s.aluOr x).diags = s.diags := rfl
@[simp] theorem State.aluOr_draws (s : State) (x : Byte) : (s.aluOr x).draws = s.draws := rfl
@[simp] theorem State.aluOr_cfg (s : State) (x : Byte) : (s.aluOr x).cfg = s.cfg := rfl

/-! ### `State.aluSub` -/

@[simp] theorem State.aluSub_b (s : State) (x : Byte) (k : Bool) : (s.aluSub x k).b = s.b := rfl
@[simp] theorem State.aluSub_c (s : State) (x : Byte) (k : Bool) : (s.aluSub x k).c = s.c := rfl
@[simp] theorem State.aluSub_d (s : State) (x : Byte) (k : Bool) : (s.aluSub x k).d = s.d := rfl
@[simp] theorem State.aluSub_e (s : State) (x : Byte) (k : Bool) : (s.aluSub x k).e = s.e := rfl
@[simp] theorem State.aluSub_h (s : State) (x : Byte) (k : Bool) : (s.aluSub x k).h = s.h := rfl
@[simp] theorem State.aluSub_l (s : State) (x : Byte) (k : Bool) : (s.aluSub x k).l = s.l := rfl
@[simp] theorem State.aluSub_slot6 (s : State) (x : Byte) (k : Bool) : (s.aluSub x k).slot6 = s.slot6 := rfl
@[simp] theorem State.aluSub_pc (s : State) (x : Byte) (k : Bool) : (s.aluSub x k).pc = s.pc := rfl
@[simp] theorem State.aluSub_sp (s : State) (x : Byte) (k : Bool) : (s.aluSub x k).sp = s.sp := rfl
@[simp] theorem State.aluSub_inte (s : State) (x : Byte) (k : Bool) : (s.aluSub x k).inte = s.inte := rfl
@[simp] theorem State.aluSub_halted (s : State) (x : Byte) (k : Bool) : (s.aluSub x k).halted = s.halted := rfl
@[simp] theorem State.aluSub_mem (s : State) (x : Byte) (k : Bool) : (s.aluSub x k).mem = s.mem := rfl
@[simp] theorem State.aluSub_dip1 (s : State) (x : Byte) (k : Bool) : (s.aluSub x k).dip1 = s.dip1 := rfl
@[simp] theorem State.aluSub_dip2 (s : State) (x : Byte) (k : Bool) : (s.aluSub x k).dip2 = s.dip2 := rfl
@[simp] theorem State.aluSub_shift (s : State) (x : Byte) (k : Bool) : (s.aluSub x k).shift = s.shift := rfl
@[simp] theorem State.aluSub_offset (s : State) (x : Byte) (k : Bool) : (s.aluSub x k).offset = s.offset := rfl
@[simp] theorem State.aluSub_cycles (s : State) (x : Byte) (k : Bool) : (s.aluSub x k).cycles = s.cycles := rfl
@[simp] theorem State.aluSub_diags (s : State) (x : Byte) (k : Bool) : (s.aluSub x k).diags = s.diags := rfl
@[simp] theorem State.aluSub_cfg (s : State) (x : Byte) (k : Bool) : (s.aluSub x k).cfg = s.cfg := rfl

/-! ### `State.aluCmp` -/

@[simp] theorem State.aluCmp_b (s : State) (x : Byte) : (s.aluCmp x).b = s.b := rfl
@[simp] theorem State.aluCmp_c (s : State) (x : Byte) : (s.aluCmp x).c = s.c := rfl
@[simp] theorem State.aluCmp_d (s : State) (x : Byte) : (s.aluCmp x).d = s.d := rfl
@[simp] theorem State.aluCmp_e (s : State) (x : Byte) : (s.aluCmp x).e = s.e := rfl
@[simp] theorem State.aluCmp_h (s : State) (x : Byte) : (s.aluCmp x).h = s.h := rfl
@[simp] theorem State.aluCmp_l (s : State) (x : Byte) : (s.aluCmp x).l = s.l := rfl
@[simp] theorem State.aluCmp_a (s : State) (x : Byte) : (s.aluCmp x).a = s.a := rfl
@[simp] theorem State.aluCmp_slot6 (s : State) (x : Byte) : (s.aluCmp x).slot6 = s.slot6 := rfl
@[simp] theorem State.aluCmp_pc (s : State) (x : Byte) : (s.aluCmp x).pc = s.pc := rfl
@[simp] theorem State.aluCmp_sp (s : State) (x : Byte) : (s.aluCmp x).sp = s.sp := rfl
@[simp] theorem State.aluCmp_inte (s : State) (x : Byte) : (s.aluCmp x).inte = s.inte := rfl
@[simp] theorem State.aluCmp_halted (s : State) (x : Byte) : (s.aluCmp x).halted = s.halted := rfl
@[simp] theorem State.aluCmp_mem (s : State) (x : Byte) : (s.aluCmp x).mem = s.mem := rfl
@[simp] theorem State.aluCmp_dip1 (s : State) (x : Byte) : (s.aluCmp x).dip1 = s.dip1 := rfl
@[simp] theorem State.aluCmp_dip2 (s : State) (x : Byte) : (s.aluCmp x).dip2 = s.dip2 := rfl
@[simp] theorem State.aluCmp_shift (s : State) (x : Byte) : (s.aluCmp x).shift = s.shift := rfl
@[simp] theorem State.aluCmp_offset (s : State) (x : Byte) : (s.aluCmp x).offset = s.offset := rfl
@[simp] theorem State.aluCmp_cycles (s : State) (x : Byte) : (s.aluCmp x).cycles = s.cycles := rfl
@[simp] theorem State.aluCmp_diags (s : State) (x : Byte) : (s.aluCmp x).diags = s.diags := rfl
@[simp] theorem State.aluCmp_cfg (s : State) (x : Byte) : (s.aluCmp x).cfg = s.cfg := rfl

/-! ### `State.aluDaa` -/

@[simp] theorem State.aluDaa_b (s : State) : (s.aluDaa).b = s.b := by
  unfold State.aluDaa; split <;> rfl
@[simp] theorem State.aluDaa_c (s : State) : (s.aluDaa).c = s.c := by
  unfold State.aluDaa; split <;> rfl
@[simp] theorem State.aluDaa_d (s : State) : (s.aluDaa).d = s.d := by
  unfold State.aluDaa; split <;> rfl
@[simp] theorem State.aluDaa_e (s : State) : (s.aluDaa).e = s.e := by
  unfold State.aluDaa; split <;> rfl
@[simp] theorem State.aluDaa_h (s : State) : (s.aluDaa).h = s.h := by
  unfold State.aluDaa; split <;> rfl
@[simp] theorem State.aluDaa_l (s : State) : (s.aluDaa).l = s.l := by
  unfold State.aluDaa; split <;> rfl
@[simp] theorem State.aluDaa_slot6 (s : State) : (s.aluDaa).slot6 = s.slot6 := by
  unfold State.aluDaa; split <;> rfl
@[simp] theorem State.aluDaa_pc (s : State) : (s.aluDaa).pc = s.pc := by
  unfold State.aluDaa; split <;> rfl
@[simp] theorem State.aluDaa_sp (s : State) : (s.aluDaa).sp = s.sp := by
  unfold State.aluDaa; split <;> rfl
@[simp] theorem State.aluDaa_inte (s : State) : (s.aluDaa).inte = s.inte := by
  unfold State.aluDaa; split <;> rfl
@[simp] theorem State.aluDaa_halted (s : State) : (s.aluDaa).halted = s.halted := by
  unfold State.aluDaa; split <;> rfl
@[simp] theorem State.aluDaa_mem (s : State) : (s.aluDaa).mem = s.mem := by
  unfold State.aluDaa; split <;> rfl
@[simp] theorem State.aluDaa_dip1 (s : State) : (s.aluDaa).dip1 = s.dip1 := by
  unfold State.aluDaa; split <;> rfl
@[simp] theorem State.aluDaa_dip2 (s : State) : (s.aluDaa).dip2 = s.dip2 := by
  unfold State.aluDaa; split <;> rfl
@[simp] theorem State.aluDaa_shift (s : State) : (s.aluDaa).shift = s.shift := by
  unfold State.aluDaa; split <;> rfl
@[simp] theorem State.aluDaa_offset (s : State) : (s.aluDaa).offset = s.offset := by
  unfold State.aluDaa; split <;> rfl
@[simp] theorem State.aluDaa_cycles (s : State) : (s.aluDaa).cycles = s.cycles := by
  unfold State.aluDaa; split <;> rfl
@[simp] theorem State.aluDaa_diags (s : State) : (s.aluDaa).diags = s.diags := by
  unfold State.aluDaa; split <;> rfl
@[simp] theorem State.aluDaa_cfg (s : State) : (s.aluDaa).cfg = s.cfg := by
  unfold State.aluDaa; split <;> rfl

/-! ### `State.inputToA` -/

@[simp] theorem State.inputToA_b (s : State) (x : Byte) : (s.inputToA x).b = s.b := by
  unfold State.inputToA; (repeat' split) <;> rfl
@[simp] theorem State.inputToA_c (s : State) (x : Byte) : (s.inputToA x).c = s.c := by
  unfold State.inputToA; (repeat' split) <;> rfl
@[simp] theorem State.inputToA_d (s : State) (x : Byte) : (s.inputToA x).d = s.d := by
  unfold State.inputToA; (repeat' split) <;> rfl
@[simp] theorem State.inputToA_e (s : State) (x : Byte) : (s.inputToA x).e = s.e := by
  unfold State.inputToA; (repeat' split) <;> rfl
@[simp] theorem State.inputToA_h (s : State) (x : Byte) : (s.inputToA x).h = s.h := by
  unfold State.inputToA; (repeat' split) <;> rfl
@[simp] theorem State.inputToA_l (s : State) (x : Byte) : (s.inputToA x).l = s.l := by
  unfold State.inputToA; (repeat' split) <;> rfl
@[simp] theorem State.inputToA_slot6 (s : State) (x : Byte) : (s.inputToA x).slot6 = s.slot6 := by
  unfold State.inputToA; (repeat' split) <;> rfl
@[simp] theorem State.inputToA_pc (s : State) (x : Byte) : (s.inputToA x).pc = s.pc := by
  unfold State.inputToA; (repeat' split) <;> rfl
@[simp] theorem State.inputToA_sp (s : State) (x : Byte) : (s.inputToA x).sp = s.sp := by
  unfold State.inputToA; (repeat' split) <;> rfl
@[simp] theorem State.inputToA_flags (s : State) (x : Byte) : (s.inputToA x).flags = s.flags := by
  unfold State.inputToA; (repeat' split) <;> rfl
@[simp] theorem State.inputToA_inte (s : State) (x : Byte) : (s.inputToA x).inte = s.inte := by
  unfold State.inputToA; (repeat' split) <;> rfl
@[simp] theorem State.inputToA_halted (s : State) (x : Byte) : (s.inputToA x).halted = s.halted := by
  unfold State.inputToA; (repeat' split) <;> rfl
@[simp] theorem State.inputToA_mem (s : State) (x : Byte) : (s.inputToA x).mem = s.mem := by
  unfold State.inputToA; (repeat' split) <;> rfl
@[simp] theorem State.inputToA_dip1 (s : State) (x : Byte) : (s.inputToA x).dip1 = s.dip1 := by
  unfold State.inputToA; (repeat' split) <;> rfl
@[simp] theorem State.inputToA_dip2 (s : State) (x : Byte) : (s.inputToA x).dip2 = s.dip2 := by
  unfold State.inputToA; (repeat' split) <;> rfl
@[simp] theorem State.inputToA_shift (s : State) (x : Byte) : (s.inputToA x).shift = s.shift := by
  unfold State.inputToA; (repeat' split) <;> rfl
@[simp] theorem State.inputToA_offset (s : State) (x : Byte) : (s.inputToA x).offset = s.offset := by
  unfold State.inputToA; (repeat' split) <;> rfl
@[simp] theorem State.inputToA_cycles (s : State) (x : Byte) : (s.inputToA x).cycles = s.cycles := by
  unfold State.inputToA; (repeat' split) <;> rfl
@[simp] theorem State.inputToA_diags (s : State) (x : Byte) : (s.inputToA x).diags = s.diags := by
  unfold State.inputToA; (repeat' split) <;> rfl
@[simp] theorem State.inputToA_cfg (s : State) (x : Byte) : (s.inputToA x).cfg = s.cfg := by
  unfold State.inputToA; (repeat' split) <;> rfl

/-! ### `State.output` -/

@[simp] theorem State.output_b (s : State) (x y : Byte) : (s.output x y).b = s.b := by
  unfold State.output; (repeat' split) <;> rfl
@[simp] theorem State.output_c (s : State) (x y : Byte) : (s.output x y).c = s.c := by
  unfold State.output; (repeat' split) <;> rfl
@[simp] theorem State.output_d (s : State) (x y : Byte) : (s.output x y).d = s.d := by
  unfold State.output; (repeat' split) <;> rfl
@[simp] theorem State.output_e (s : State) (x y : Byte) : (s.output x y).e = s.e := by
  unfold State.output; (repeat' split) <;> rfl
@[simp] theorem State.output_h (s : State) (x y : Byte) : (s.output x y).h = s.h := by
  unfold State.output; (repeat' split) <;> rfl
@[simp] theorem State.output_l (s : State) (x y : Byte) : (s.output x y).l = s.l := by
  unfold State.output; (repeat' split) <;> rfl
@[simp] theorem State.output_a (s : State) (x y : Byte) : (s.output x y).a = s.a := by
  unfold State.output; (repeat' split) <;> rfl
@[simp] theorem State.output_slot6 (s : State) (x y : Byte) : (s.output x y).slot6 = s.slot6 := by
  unfold State.output; (repeat' split) <;> rfl
@[simp] theorem State.output_pc (s : State) (x y : Byte) : (s.output x y).pc = s.pc := by
  unfold State.output; (repeat' split) <;> rfl
@[simp] theorem State.output_sp (s : State) (x y : Byte) : (s.output x y).sp = s.sp := by
  unfold State.output; (repeat' split) <;> rfl
@[simp] theorem State.output_flags (s : State) (x y : Byte) : (s.output x y).flags = s.flags := by
  unfold State.output; (repeat' split) <;> rfl
@[simp] theorem State.output_inte (s : State) (x y : Byte) : (s.output x y).inte = s.inte := by
  unfold State.output; (repeat' split) <;> rfl
@[simp] theorem State.output_halted (s : State) (x y : Byte) : (s.output x y).halted = s.halted := by
  unfold State.output; (repeat' split) <;> rfl
@[simp] theorem State.output_mem (s : State) (x y : Byte) : (s.output x y).mem = s.mem := by
  unfold State.output; (repeat' split) <;> rfl
@[simp] theorem State.output_dip1 (s : State) (x y : Byte) : (s.output x y).dip1 = s.dip1 := by
  unfold State.output; (repeat' split) <;> rfl
@[simp] theorem State.output_dip2 (s : State) (x y : Byte) : (s.output x y).dip2 = s.dip2 := by
  unfold State.output; (repeat' split) <;> rfl
@[simp] theorem State.output_cycles (s : State) (x y : Byte) : (s.output x y).cycles = s.cycles := by
  unfold State.output; (repeat' split) <;> rfl
@[simp] theorem State.output_diags (s : State) (x y : Byte) : (s.output x y).diags = s.diags := by
  unfold State.output; (repeat' split) <;> rfl
@[simp] theorem State.output_draws (s : State) (x y : Byte) : (s.output x y).draws = s.draws := by
  unfold State.output; (repeat' split) <;> rfl
@[simp] theorem State.output_cfg (s : State) (x y : Byte) : (s.output x y).cfg = s.cfg := by
  unfold State.output; (repeat' split) <;> rfl

/-! ### `State.dispatch` -/

@[simp] theorem State.dispatch_b (s : State) (x : Addr) : (s.dispatch x).b = s.b := by simp [State.dispatch]
@[simp] theorem State.dispatch_c (s : State) (x : Addr) : (s.dispatch x).c = s.c := by simp [State.dispatch]
@[simp] theorem State.dispatch_d (s : State) (x : Addr) : (s.dispatch x).d = s.d := by simp [State.dispatch]
@[simp] theorem State.dispatch_e (s : State) (x : Addr) : (s.dispatch x).e = s.e := by simp [State.dispatch]
@[simp] theorem State.dispatch_h (s : State) (x : Addr) : (s.dispatch x).h = s.h := by simp [State.dispatch]
@[simp] theorem State.dispatch_l (s : State) (x : Addr) : (s.dispatch x).l = s.l := by simp [State.dispatch]
@[simp] theorem State.dispatch_a (s : State) (x : Addr) : (s.dispatch x).a = s.a := by simp [State.dispatch]
@[simp] theorem State.dispatch_slot6 (s : State) (x : Addr) : (s.dispatch x).slot6 = s.slot6 := by simp [State.dispatch]
@[simp] theorem State.dispatch_flags (s : State) (x : Addr) : (s.dispatch x).flags = s.flags := by simp [State.dispatch]
@[simp] theorem State.dispatch_dip1 (s : State) (x : Addr) : (s.dispatch x).dip1 = s.dip1 := by simp [State.dispatch]
@[simp] theorem State.dispatch_dip2 (s : State) (x : Addr) : (s.dispatch x).dip2 = s.dip2 := by simp [State.dispatch]
@[simp] theorem State.dispatch_shift (s : State) (x : Addr) : (s.dispatch x).shift = s.shift := by simp [State.dispatch]
@[simp] theorem State.dispatch_offset (s : State) (x : Addr) : (s.dispatch x).offset = s.offset := by simp [State.dispatch]
@[simp] theorem State.dispatch_cycles (s : State) (x : Addr) : (s.dispatch x).cycles = s.cycles := by simp [State.dispatch]
@[simp] theorem State.dispatch_draws (s : State) (x : Addr) : (s.dispatch x).draws = s.draws := by simp [State.dispatch]
@[simp] theorem State.dispatch_cfg (s : State) (x : Addr) : (s.dispatch x).cfg = s.cfg := by simp [State.dispatch]
@[simp] theorem State.dispatch_pc (s : State) (x : Addr) : (s.dispatch x).pc = x := rfl
@[simp] theorem State.dispatch_sp (s : State) (x : Addr) : (s.dispatch x).sp = s.sp - 2 := rfl
@[simp] theorem State.dispatch_inte (s : State) (x : Addr) : (s.dispatch x).inte = false := rfl
@[simp] theorem State.dispatch_halted (s : State) (x : Addr) : (s.dispatch x).halted = false := rfl

/-! ### Reading back a register or a pair -/

@[simp] theorem State.reg_setReg (s : State) (r q : Reg) (v : Byte) :
    (s.setReg r v).reg q = if q = r then v else s.reg q := by
  cases r <;> cases q <;> rfl

theorem joinBytes_toNat (h l : Byte) : (joinBytes h l).toNat = 256 * h.toNat + l.toNat := by
  have := h.isLt
  have := l.isLt
  simp [joinBytes]
  omega

@[simp] theorem joinBytes_hi_lo (v : Addr) : joinBytes (hiByte v) (loByte v) = v := by
  have := v.isLt
  apply BitVec.eq_of_toNat_eq
  rw [joinBytes_toNat]
  simp [hiByte, loByte]
  omega

@[simp] theorem hiByte_joinBytes (h l : Byte) : hiByte (joinBytes h l) = h := by
  have := h.isLt
  have := l.isLt
  apply BitVec.eq_of_toNat_eq
  simp [hiByte, joinBytes_toNat]
  omega

@[simp] theorem loByte_joinBytes (h l : Byte) : loByte (joinBytes h l) = l := by
  have := l.isLt
  apply BitVec.eq_of_toNat_eq
  simp [loByte, joinBytes_toNat]
  omega

/-- A pair reads back what was written to it, and the other pairs are unchanged (R22). -/
@[simp] theorem State.pair_setPair (s : State) (p q : Pair) (v : Addr) :
    (s.setPair p v).pair q = if q = p then v else s.pair q := by
  cases p <;> cases q <;> simp [State.pair, State.setPair]

end Sys2Proof.Machine
end

