-- ==== Sys2Proof/Laws/Memory.lean ====
section
/-! SUPPORT. Memory lists: a read after a write, and that every memory operation keeps the canonical form. -/

namespace Sys2Proof.Machine

/-! ### The list -/

theorem Memory.wfFrom_cons (lo k : Nat) (v : Byte) (m : Memory) :
    Memory.wfFrom lo ((k, v) :: m) = true ↔
      lo ≤ k ∧ k < 0x10000 ∧ v ≠ Memory.unlisted ∧ Memory.wfFrom (k + 1) m = true := by
  simp [Memory.wfFrom, and_assoc]

theorem Memory.wfFrom_mono {lo lo' : Nat} {m : Memory} (h : Memory.wfFrom lo m = true) (hle : lo' ≤ lo) :
    Memory.wfFrom lo' m = true := by
  cases m with
  | nil => rfl
  | cons x m =>
    rw [Memory.wfFrom_cons] at *
    exact ⟨hle.trans h.1, h.2⟩

/-- A cell below the first address of a canonical list is not listed. -/
theorem Memory.read_of_lt {lo k : Nat} {m : Memory} (h : Memory.wfFrom lo m = true) (hk : k < lo) :
    m.read k = Memory.unlisted := by
  induction m generalizing lo with
  | nil => rfl
  | cons x m ih =>
    rw [Memory.wfFrom_cons] at h
    rw [Memory.read, if_neg (by omega)]
    exact ih h.2.2.2 (by omega)

/-- A cell reads back the byte written to it. -/
theorem Memory.read_write_same {lo : Nat} {m : Memory} (h : Memory.wfFrom lo m = true) (k : Nat) (v : Byte) :
    (m.write k v).read k = v := by
  induction m generalizing lo with
  | nil =>
    rw [Memory.write]
    split
    · simp_all [Memory.read]
    · simp [Memory.read]
  | cons x m ih =>
    obtain ⟨j, w⟩ := x
    rw [Memory.wfFrom_cons] at h
    rw [Memory.write]
    split
    · split
      · subst v
        rw [Memory.read, if_neg (by omega)]
        exact Memory.read_of_lt h.2.2.2 (by omega)
      · simp [Memory.read]
    · split
      · split
        · subst v
          exact Memory.read_of_lt h.2.2.2 (by omega)
        · simp [Memory.read]
      · rw [Memory.read, if_neg (by omega)]
        exact ih h.2.2.2

/-- A write leaves every other cell alone. -/
theorem Memory.read_write_other {lo : Nat} {m : Memory} (h : Memory.wfFrom lo m = true) {k j : Nat} (v : Byte)
    (hne : j ≠ k) : (m.write k v).read j = m.read j := by
  induction m generalizing lo with
  | nil =>
    rw [Memory.write]
    split
    · rfl
    · simp [Memory.read, hne.symm]
  | cons x m ih =>
    obtain ⟨i, w⟩ := x
    rw [Memory.wfFrom_cons] at h
    rw [Memory.write]
    split
    · split
      · rfl
      · rw [Memory.read, if_neg hne.symm]
    · split
      · subst k
        rw [Memory.read, if_neg hne.symm]
        split
        · rfl
        · rw [Memory.read, if_neg hne.symm]
      · simp only [Memory.read]
        rw [ih h.2.2.2]

/-- A write keeps the canonical form. -/
theorem Memory.write_wfFrom {lo : Nat} {m : Memory} (h : Memory.wfFrom lo m = true) {k : Nat} (v : Byte)
    (hlo : lo ≤ k) (hk : k < 0x10000) : Memory.wfFrom lo (m.write k v) = true := by
  induction m generalizing lo with
  | nil =>
    rw [Memory.write]
    split
    · rfl
    · simp_all [Memory.wfFrom]
  | cons x m ih =>
    obtain ⟨j, w⟩ := x
    have h0 := h
    rw [Memory.wfFrom_cons] at h
    rw [Memory.write]
    split
    · split
      · exact h0
      · rw [Memory.wfFrom_cons, Memory.wfFrom_cons]
        exact ⟨hlo, hk, ‹_›, by omega, h.2⟩
    · split
      · split
        · exact Memory.wfFrom_mono h.2.2.2 (by omega)
        · subst k
          rw [Memory.wfFrom_cons]
          exact ⟨hlo, hk, ‹_›, h.2.2.2⟩
      · rw [Memory.wfFrom_cons]
        exact ⟨h.1, h.2.1, h.2.2.1, ih h.2.2.2 (by omega)⟩

theorem Memory.write_wf {m : Memory} (h : m.wf = true) {k : Nat} (v : Byte) (hk : k < 0x10000) :
    (m.write k v).wf = true :=
  Memory.write_wfFrom h v (Nat.zero_le _) hk

/-! ### The memory port -/

/-- Where a redirect lands (R54). -/
theorem redirect_spec (a : Nat) (h : a < 0x10000) :
    redirect a ≤ 0x4000 ∧ (a ≤ 0x4000 → redirect a = a) ∧ (0x4000 < a → 0x2000 < redirect a) := by
  unfold redirect
  split <;> omega

/-- A cell a write stores to is a RAM cell (R53). -/
theorem storeCell_range {a : Addr} {k : Nat} (h : storeCell a = some k) : 0x2000 ≤ k ∧ k ≤ 0x4000 := by
  have := redirect_spec a.toNat a.isLt
  unfold storeCell at h
  split at h
  · cases h
  · cases h
    by_cases h4 : a.toNat ≤ 0x4000
    · omega
    · omega

theorem storeCell_eq_none {a : Addr} : storeCell a = none ↔ a.toNat < 0x2000 := by
  unfold storeCell
  split <;> simp_all

theorem storeCell_eq_some {a : Addr} (h : 0x2000 ≤ a.toNat) : storeCell a = some (redirect a.toNat) := by
  unfold storeCell
  rw [if_neg (by omega)]

/-- Everything a byte write can do (R53): dropped with its signal, or stored in one RAM cell. -/
theorem State.memWrite_cases (s : State) (a : Addr) (v : Byte) :
    (storeCell a = none ∧ s.memWrite a v = { s with diags := s.diags ++ [{ addr := a, value := v }] }) ∨
    ∃ k, storeCell a = some k ∧ s.memWrite a v = { s with mem := s.mem.write k v } := by
  unfold State.memWrite
  cases h : storeCell a with
  | none => exact .inl ⟨rfl, rfl⟩
  | some k => exact .inr ⟨k, rfl, rfl⟩

/-- A byte write changes memory and the signals alone. -/
theorem State.memWrite_frame (s : State) (a : Addr) (v : Byte) :
    s.memWrite a v = { s with mem := (s.memWrite a v).mem, diags := (s.memWrite a v).diags } := by
  rcases s.memWrite_cases a v with ⟨_, h⟩ | ⟨_, _, h⟩ <;> rw [h]

/-- A byte write keeps the canonical form. -/
theorem State.memWrite_wf {s : State} (h : s.mem.wf = true) (a : Addr) (v : Byte) : (s.memWrite a v).mem.wf = true := by
  rcases s.memWrite_cases a v with ⟨_, h'⟩ | ⟨k, hk, h'⟩
  · rw [h']; exact h
  · rw [h']; exact Memory.write_wf h v (by have := storeCell_range hk; omega)

/-- A load below 0x10000 keeps the canonical form. -/
theorem State.load_wf {s : State} (h : s.mem.wf = true) {k : Nat} (hk : k < 0x10000) (v : Byte) :
    (s.load k v).mem.wf = true :=
  Memory.write_wf h v hk

/-- A push keeps the canonical form. -/
theorem State.push16_wf {s : State} (h : s.mem.wf = true) (v : Addr) : (s.push16 v).mem.wf = true :=
  State.memWrite_wf (State.memWrite_wf h _ _) _ _

/-- A 16-bit write keeps the canonical form. -/
theorem State.memWrite16_wf {s : State} (h : s.mem.wf = true) (a v : Addr) : (s.memWrite16 a v).mem.wf = true :=
  State.memWrite_wf (State.memWrite_wf h _ _) _ _

/-- A push changes memory, the signals and sp alone. -/
theorem State.push16_frame (s : State) (v : Addr) :
    s.push16 v = { s with mem := (s.push16 v).mem, diags := (s.push16 v).diags, sp := s.sp - 2 } := by
  simp only [State.push16]
  rw [State.memWrite_frame (s.memWrite _ _), State.memWrite_frame s]

/-- A 16-bit write changes memory and the signals alone. -/
theorem State.memWrite16_frame (s : State) (a v : Addr) :
    s.memWrite16 a v = { s with mem := (s.memWrite16 a v).mem, diags := (s.memWrite16 a v).diags } := by
  simp only [State.memWrite16]
  rw [State.memWrite_frame (s.memWrite _ _), State.memWrite_frame s]

/-- A cell a read returns is one of the 65536 (R51, R52). -/
theorem readCell_lt (cfg : Config) (a : Addr) : readCell cfg a < 0x10000 := by
  have h := redirect_spec a.toNat a.isLt
  have := a.isLt
  unfold readCell
  split <;> omega

/-- Placing bytes where a fetch reads them keeps the canonical form. -/
theorem State.placeBytes_wf (bs : List Byte) : ∀ {s : State}, s.mem.wf = true → ∀ a : Addr,
    (s.placeBytes a bs).mem.wf = true := by
  induction bs with
  | nil => exact fun h _ => h
  | cons v bs ih => exact fun h a => ih (State.load_wf h (readCell_lt _ a) v) (a + 1)

/-- A load of consecutive cells below 0x10000 keeps the canonical form. -/
theorem State.loadFrom_wf (vs : List Byte) : ∀ {s : State} {k : Nat}, s.mem.wf = true → k + vs.length ≤ 0x10000 →
    (s.loadFrom k vs).mem.wf = true := by
  induction vs with
  | nil => exact fun h _ => h
  | cons v vs ih =>
    intro s k h hk
    rw [List.length_cons] at hk
    exact ih (State.load_wf h (by omega) v) (by omega)

/-- A cell after a load of consecutive cells: the byte loaded there, else what it held. -/
theorem State.read_loadFrom (vs : List Byte) : ∀ {s : State} {k : Nat}, s.mem.wf = true → k + vs.length ≤ 0x10000 →
    ∀ j, (s.loadFrom k vs).mem.read j = if k ≤ j ∧ j < k + vs.length then vs.getD (j - k) 0 else s.mem.read j := by
  induction vs with
  | nil =>
    intro s k _ _ j
    rw [if_neg (by simp)]
    rfl
  | cons v vs ih =>
    intro s k h hk j
    rw [List.length_cons] at hk
    have hload : (s.load k v).mem.read j = if j = k then v else s.mem.read j := by
      by_cases hj : j = k
      · subst hj
        rw [if_pos rfl]
        exact Memory.read_write_same h j v
      · rw [if_neg hj]
        exact Memory.read_write_other h v hj
    rw [State.loadFrom, ih (State.load_wf h (by omega) v) (by omega), hload, List.length_cons]
    by_cases hj : j = k
    · subst hj
      rw [if_neg (by omega), if_pos rfl, if_pos (by omega), Nat.sub_self]
      rfl
    · rw [if_neg hj]
      by_cases hr : k + 1 ≤ j ∧ j < k + 1 + vs.length
      · rw [if_pos hr, if_pos (by omega), show j - k = (j - (k + 1)) + 1 by omega]
        rfl
      · rw [if_neg hr, if_neg (by omega)]

/-- A load of consecutive cells changes memory alone. -/
theorem State.loadFrom_frame (vs : List Byte) : ∀ (s : State) (k : Nat),
    s.loadFrom k vs = { s with mem := (s.loadFrom k vs).mem } := by
  induction vs with
  | nil => exact fun _ _ => rfl
  | cons v vs ih => exact fun s k => ih (s.load k v) (k + 1)

/-- A cell after a byte write: the byte written if the write is stored there, else what it held. -/
theorem State.read_memWrite {s : State} (h : s.mem.wf = true) (a : Addr) (v : Byte) (k : Nat) :
    (s.memWrite a v).mem.read k = if storeCell a = some k then v else s.mem.read k := by
  rcases s.memWrite_cases a v with ⟨hn, h'⟩ | ⟨j, hj, h'⟩
  · simp [h', hn]
  · rw [h', hj]
    by_cases hk : j = k
    · subst hk
      simpa using Memory.read_write_same h j v
    · rw [if_neg (by simpa using hk)]
      exact Memory.read_write_other h v (Ne.symm hk)

/-- The signals after a byte write (R302). -/
theorem State.diags_memWrite (s : State) (a : Addr) (v : Byte) :
    (s.memWrite a v).diags = s.diags ++ (if a.toNat < 0x2000 then [{ addr := a, value := v }] else []) := by
  rcases s.memWrite_cases a v with ⟨hn, h'⟩ | ⟨j, hj, h'⟩
  · rw [h', if_pos (storeCell_eq_none.mp hn)]
  · have : ¬a.toNat < 0x2000 := fun hlt => by rw [storeCell_eq_none.mpr hlt] at hj; cases hj
    rw [h', if_neg this, List.append_nil]

/-- Two addresses one apart never store to the same cell (R65). -/
theorem storeCell_succ_ne (a : Addr) (k : Nat) (h : storeCell a = some k) : storeCell (a + 1) ≠ some k := by
  have hlt := a.isLt
  have h1 : (a + 1).toNat = (a.toNat + 1) % 0x10000 := by simp [BitVec.toNat_add]
  unfold storeCell at h ⊢
  rw [h1]
  split at h
  · cases h
  · cases h
    split
    · simp
    · simp only [ne_eq, Option.some.injEq]
      unfold redirect
      split <;> split <;> omega

end Sys2Proof.Machine
end

