-- ==== Sys2Proof/Laws/Ops.lean ====
section
/-! SUPPORT. What each shared operation does, once: byte and word writes as `Stores`, a pop after a push, the ports, the interrupt request, a turn of a batch, the bits the shift offset selects. -/

namespace Sys2Proof.Machine

/-! ### Writes as `Stores` -/

/-- Two memories with equal lists and parameters read alike. -/
theorem SameMemory.of_eq {s t : State} (hm : t.mem = s.mem) (hc : t.cfg = s.cfg) : SameMemory s t := by
  intro x
  simp [State.memRead, hm, hc]

/-- `Stores` looks at memory, the signals and the parameters alone. -/
theorem Stores.congr {s t u : State} {ws : List (Addr × Byte)} (h : Stores s t ws) (hm : u.mem = t.mem)
    (hd : u.diags = t.diags) (hc : u.cfg = t.cfg) : Stores s u ws := by
  obtain ⟨h1, h2⟩ := h
  refine ⟨hd.trans h1, fun hi => ⟨fun w hw h3 => by rw [hm]; exact (h2 hi).1 w hw h3, fun x hx => ?_⟩⟩
  have := (h2 hi).2 x hx
  simpa [State.memRead, hm, hc] using this

/-- A byte write is one write to the port (R53, R302). -/
theorem State.memWrite_stores (s : State) (a : Addr) (v : Byte) : Stores s (s.memWrite a v) [(a, v)] := by
  refine ⟨?_, fun hi => ⟨?_, ?_⟩⟩
  · rw [State.diags_memWrite]
    by_cases h : a.toNat < 0x2000 <;> simp [droppedWrites, h]
  · simp only [List.mem_singleton, forall_eq]
    intro h
    rw [State.read_memWrite hi, if_pos (storeCell_eq_some h)]
  · simp only [List.mem_singleton, forall_eq]
    intro x hx
    simp only [State.memRead, State.memWrite_cfg]
    rw [State.read_memWrite hi, if_neg hx]

/-- Two byte writes that reach different cells are two writes to the port, in order. -/
theorem State.memWrite_memWrite_stores (s : State) (a b : Addr) (v w : Byte)
    (hne : ∀ k, storeCell a = some k → storeCell b ≠ some k) :
    Stores s ((s.memWrite a v).memWrite b w) [(a, v), (b, w)] := by
  refine ⟨?_, fun hi => ?_⟩
  · rw [State.diags_memWrite, State.diags_memWrite]
    by_cases h : a.toNat < 0x2000 <;> by_cases h' : b.toNat < 0x2000 <;> simp [droppedWrites, h, h']
  · have hi1 : (s.memWrite a v).mem.wf = true := State.memWrite_wf hi a v
    refine ⟨?_, fun x hx => ?_⟩
    · simp only [List.mem_cons, List.not_mem_nil, or_false, forall_eq_or_imp, forall_eq]
      refine ⟨fun h => ?_, fun h => ?_⟩
      · rw [State.read_memWrite hi1, if_neg (hne _ (storeCell_eq_some h)), State.read_memWrite hi,
          if_pos (storeCell_eq_some h)]
      · rw [State.read_memWrite hi1, if_pos (storeCell_eq_some h)]
    · simp only [List.mem_cons, List.not_mem_nil, or_false, forall_eq_or_imp, forall_eq] at hx
      simp only [State.memRead, State.memWrite_cfg]
      rw [State.read_memWrite hi1, if_neg hx.2, State.read_memWrite hi, if_neg hx.1]

/-- A 16-bit write is two writes to the port, low byte first (R60). -/
theorem State.memWrite16_stores (s : State) (a v : Addr) :
    Stores s (s.memWrite16 a v) [(a, loByte v), (a + 1, hiByte v)] :=
  s.memWrite_memWrite_stores a (a + 1) _ _ fun k hk => storeCell_succ_ne a k hk

/-- A push is two writes to the port, high byte first (R61). -/
theorem State.push16_stores (s : State) (v : Addr) :
    Stores s (s.push16 v) [(s.sp - 1, hiByte v), (s.sp - 2, loByte v)] := by
  refine (s.memWrite_memWrite_stores (s.sp - 1) (s.sp - 2) (hiByte v) (loByte v) fun k hk hk' => ?_).congr rfl rfl rfl
  refine storeCell_succ_ne (s.sp - 2) k hk' ?_
  have : s.sp - 2 + 1 = s.sp - 1 := by bv_omega
  rw [this]
  exact hk

/-- With both bytes of the stack word in RAM, a pop right after a push returns the word pushed (R61, R342), in either
READ_REDIRECT. -/
theorem State.top16_push16 {s : State} (hi : s.Inv) (h1 : 0x2002 ≤ s.sp.toNat) (h2 : s.sp.toNat ≤ 0x4001) (v : Addr) :
    (s.push16 v).top16 = v := by
  have ha : (s.sp - 1).toNat = s.sp.toNat - 1 := by bv_omega
  have hb : (s.sp - 2).toNat = s.sp.toNat - 2 := by bv_omega
  have hplus : s.sp - 2 + 1 = s.sp - 1 := by bv_omega
  have hra : redirect (s.sp - 1).toNat = (s.sp - 1).toNat := (redirect_spec _ (s.sp - 1).isLt).2.1 (by omega)
  have hrb : redirect (s.sp - 2).toNat = (s.sp - 2).toNat := (redirect_spec _ (s.sp - 2).isLt).2.1 (by omega)
  obtain ⟨_, hst⟩ := s.push16_stores v
  have hst := (hst hi).1
  simp only [List.mem_cons, List.not_mem_nil, or_false, forall_eq_or_imp, forall_eq] at hst
  have hhi := hst.1 (by omega)
  have hlo := hst.2 (by omega)
  rw [hra] at hhi
  rw [hrb] at hlo
  have hcell : ∀ a : Addr, redirect a.toNat = a.toNat → ∀ cfg, readCell cfg a = a.toNat := by
    intro a h cfg
    unfold readCell
    split <;> simp [h]
  unfold State.top16 State.memRead16 State.memRead
  rw [State.push16_sp, hplus, hcell _ hra, hcell _ hrb, hhi, hlo, joinBytes_hi_lo]

/-! ### The devices, the draws and the interrupt request, case by case -/

/-- Everything an IN can do to the state (R320, R325): one of the three devices answers, or a draw does. -/
theorem State.inputToA_cases (s : State) (p : Byte) :
    (p = s.cfg.portDip1 ∧ s.inputToA p = { s with a := s.dip1 }) ∨
    (p ≠ s.cfg.portDip1 ∧ p = s.cfg.portDip2 ∧ s.inputToA p = { s with a := s.dip2 }) ∨
    (p ≠ s.cfg.portDip1 ∧ p ≠ s.cfg.portDip2 ∧ p = s.cfg.portShiftResult ∧
      s.inputToA p = { s with a := shiftResult s.shift s.offset }) ∨
    (p ≠ s.cfg.portDip1 ∧ p ≠ s.cfg.portDip2 ∧ p ≠ s.cfg.portShiftResult ∧
      s.inputToA p = { s with a := Config.ioDraw s.draws, draws := s.draws + 1 }) := by
  unfold State.inputToA
  by_cases h1 : p = s.cfg.portDip1
  · exact .inl ⟨h1, if_pos h1⟩
  · by_cases h2 : p = s.cfg.portDip2
    · exact .inr (.inl ⟨h1, h2, by rw [if_neg h1, if_pos h2]⟩)
    · by_cases h3 : p = s.cfg.portShiftResult
      · exact .inr (.inr (.inl ⟨h1, h2, h3, by rw [if_neg h1, if_neg h2, if_pos h3]⟩))
      · exact .inr (.inr (.inr ⟨h1, h2, h3, by rw [if_neg h1, if_neg h2, if_neg h3]⟩))

/-- Everything an OUT can do to the state (R320, R325): the fill, the offset, or nothing. -/
theorem State.output_cases (s : State) (p v : Byte) :
    (p = s.cfg.portShiftFill ∧ s.output p v = { s with shift := joinBytes (loByte s.shift) v }) ∨
    (p ≠ s.cfg.portShiftFill ∧ p = s.cfg.portShiftOffset ∧ s.output p v = { s with offset := v.extractLsb' 0 3 }) ∨
    (p ≠ s.cfg.portShiftFill ∧ p ≠ s.cfg.portShiftOffset ∧ s.output p v = s) := by
  unfold State.output
  by_cases h1 : p = s.cfg.portShiftFill
  · exact .inl ⟨h1, if_pos h1⟩
  · by_cases h2 : p = s.cfg.portShiftOffset
    · exact .inr (.inl ⟨h1, h2, by rw [if_neg h1, if_pos h2]⟩)
    · exact .inr (.inr ⟨h1, h2, by rw [if_neg h1, if_neg h2]⟩)

/-- Everything a request can do (R311, R312). -/
theorem interrupt_cases (v : Addr) (s : State) :
    (s.inte = true ∧ interrupt v s = .accepted (s.dispatch v)) ∨ (s.inte = false ∧ interrupt v s = .notAccepted) := by
  unfold interrupt
  cases h : s.inte <;> simp

/-- One turn of a batch whose core is not halted and whose total is short of N (R110). -/
theorem batchLoop_next {n fuel total : Nat} {ds : List RomWriteDropped} {s t : State} (hn : total < n)
    (hh : s.halted = false) (hs : step s = .next t) :
    batchLoop n (fuel + 1) total ds s = batchLoop n fuel (total + t.cycles) (ds ++ t.diags) t := by
  simp [batchLoop, hn, hh, hs]

/-! ### Conversions to the numbers of the rules -/

/-- A left shift by `offset` and then right by 8 takes bits `15 - offset` down to `8 - offset` (R323). -/
theorem shiftResult_getLsbD (shift : BitVec 16) (offset : BitVec 3) (j : Nat) (hj : j < 8) :
    (shiftResult shift offset).getLsbD j = shift.getLsbD (8 - offset.toNat + j) := by
  have ho := offset.isLt
  simp only [shiftResult, BitVec.getLsbD_ofNat, hj, decide_true, Bool.true_and, Nat.testBit_shiftRight,
    Nat.testBit_shiftLeft]
  have : 8 + j ≥ offset.toNat := by omega
  simp only [this, decide_true, Bool.true_and]
  rw [show 8 + j - offset.toNat = 8 - offset.toNat + j by omega, BitVec.testBit_toNat]

end Sys2Proof.Machine
end

