-- ==== Sys2Proof/Laws/Flags.lean ====
section
/-! SUPPORT. The ALU functions in the words of their rules (40_alu_flags.md): results mod 2^8, carries and borrows as comparisons. -/

namespace Sys2Proof.Machine

theorem ones_eq_popcount (v : Byte) : ones v = popcount v := by
  revert v
  decide +revert

/-- The result flags (R120, R122). -/
theorem szp_spec (r : Byte) (ac cy : Bool) : SignZeroParity (szp r ac cy) r := by
  refine ⟨?_, ?_, ?_⟩
  · have := r.isLt
    simp only [szp]
    rw [← BitVec.msb_eq_getLsbD_last (x := r), BitVec.msb_eq_decide]
    simp
  · simp only [szp, beq_iff_eq]
    exact ⟨fun h => by simp [h], fun h => BitVec.eq_of_toNat_eq h⟩
  · simp [szp, ones_eq_popcount]

theorem bool_toNat_le_one (c : Bool) : c.toNat ≤ 1 := by cases c <;> decide

/-- R123: the sum mod 2^8. -/
theorem add8_value (a b : Byte) (c : Bool) : (add8 a b c).value.toNat = (a.toNat + b.toNat + c.toNat) % 256 := by
  simp [add8]

/-- R123: the carries. -/
theorem add8_carries (a b : Byte) (c : Bool) :
    ((add8 a b c).flags.cy = true ↔ a.toNat + b.toNat + c.toNat > 255) ∧
    ((add8 a b c).flags.ac = true ↔ a.toNat % 16 + b.toNat % 16 + c.toNat > 15) := by
  simp [add8, szp, lowNibble]

/-- R124: the difference mod 2^8. -/
theorem sub8_value (a b : Byte) (c ac : Bool) :
    (sub8 a b c ac).value.toNat = (a.toNat + 512 - b.toNat - c.toNat) % 256 := by
  have := a.isLt
  have := b.isLt
  have := bool_toNat_le_one c
  simp only [sub8, BitVec.toNat_ofInt]
  omega

/-- R124, R125: the borrow, and the intel AC as "no borrow passes from bit 4 into bit 3". -/
theorem sub8_cy (a b : Byte) (c ac : Bool) : (sub8 a b c ac).flags.cy = true ↔ a.toNat < b.toNat + c.toNat := by
  simp [sub8, szp]

theorem acSubIntel_iff (a b : Byte) (c : Bool) :
    acSubIntel a b c = true ↔ b.toNat % 16 + c.toNat ≤ a.toNat % 16 := by
  have := a.isLt
  have := b.isLt
  have := bool_toNat_le_one c
  unfold acSubIntel lowNibble
  rw [decide_eq_true_iff]
  omega

end Sys2Proof.Machine
end

