-- ==== Sys2Proof/Laws/PerInstr.lean ====
section
/-! SUPPORT. Statements about every instruction as syntax, one lemma for each constructor. -/

namespace Sys2Proof.Laws.EncodedLength

/-- The encoding of an instruction is as long as its opcode byte says (R83). -/
def Statement (i : Instr) : Prop := (encode i).length = opcodeLength ((encode i).headD 0)

theorem movRR (dst src : Reg) : Statement (.movRR dst src) := by
  cases dst <;> cases src <;> rfl

theorem movRM (dst : Reg) : Statement (.movRM dst) := by
  cases dst <;> rfl

theorem movMR (src : Reg) : Statement (.movMR src) := by
  cases src <;> rfl

theorem mviR (dst : Reg) (imm : Byte) : Statement (.mviR dst imm) := by
  cases dst <;> rfl

theorem mviM (imm : Byte) : Statement (.mviM imm) := rfl

theorem lxi (rp : Pair) (imm : Addr) : Statement (.lxi rp imm) := by
  cases rp <;> rfl

theorem lda (adr : Addr) : Statement (.lda adr) := rfl

theorem sta (adr : Addr) : Statement (.sta adr) := rfl

theorem lhld (adr : Addr) : Statement (.lhld adr) := rfl

theorem shld (adr : Addr) : Statement (.shld adr) := rfl

theorem ldax (rp : IndexPair) : Statement (.ldax rp) := by
  cases rp <;> rfl

theorem stax (rp : IndexPair) : Statement (.stax rp) := by
  cases rp <;> rfl

theorem xchg : Statement (.xchg) := rfl

theorem addR (src : Reg) : Statement (.addR src) := by
  cases src <;> rfl

theorem addM : Statement (.addM) := rfl

theorem adi (imm : Byte) : Statement (.adi imm) := rfl

theorem adcR (src : Reg) : Statement (.adcR src) := by
  cases src <;> rfl

theorem adcM : Statement (.adcM) := rfl

theorem aci (imm : Byte) : Statement (.aci imm) := rfl

theorem subR (src : Reg) : Statement (.subR src) := by
  cases src <;> rfl

theorem subM : Statement (.subM) := rfl

theorem sui (imm : Byte) : Statement (.sui imm) := rfl

theorem sbbR (src : Reg) : Statement (.sbbR src) := by
  cases src <;> rfl

theorem sbbM : Statement (.sbbM) := rfl

theorem sbi (imm : Byte) : Statement (.sbi imm) := rfl

theorem anaR (src : Reg) : Statement (.anaR src) := by
  cases src <;> rfl

theorem anaM : Statement (.anaM) := rfl

theorem ani (imm : Byte) : Statement (.ani imm) := rfl

theorem xraR (src : Reg) : Statement (.xraR src) := by
  cases src <;> rfl

theorem xraM : Statement (.xraM) := rfl

theorem xri (imm : Byte) : Statement (.xri imm) := rfl

theorem oraR (src : Reg) : Statement (.oraR src) := by
  cases src <;> rfl

theorem oraM : Statement (.oraM) := rfl

theorem ori (imm : Byte) : Statement (.ori imm) := rfl

theorem cmpR (src : Reg) : Statement (.cmpR src) := by
  cases src <;> rfl

theorem cmpM : Statement (.cmpM) := rfl

theorem cpi (imm : Byte) : Statement (.cpi imm) := rfl

theorem inrR (dst : Reg) : Statement (.inrR dst) := by
  cases dst <;> rfl

theorem inrM : Statement (.inrM) := rfl

theorem dcrR (dst : Reg) : Statement (.dcrR dst) := by
  cases dst <;> rfl

theorem dcrM : Statement (.dcrM) := rfl

theorem inx (rp : Pair) : Statement (.inx rp) := by
  cases rp <;> rfl

theorem dcx (rp : Pair) : Statement (.dcx rp) := by
  cases rp <;> rfl

theorem dad (rp : Pair) : Statement (.dad rp) := by
  cases rp <;> rfl

theorem rlc : Statement (.rlc) := rfl

theorem rrc : Statement (.rrc) := rfl

theorem ral : Statement (.ral) := rfl

theorem rar : Statement (.rar) := rfl

theorem daa : Statement (.daa) := rfl

theorem cma : Statement (.cma) := rfl

theorem stc : Statement (.stc) := rfl

theorem cmc : Statement (.cmc) := rfl

theorem jmp (adr : Addr) : Statement (.jmp adr) := rfl

theorem jcc (cc : Cond) (adr : Addr) : Statement (.jcc cc adr) := by
  cases cc <;> rfl

theorem call (adr : Addr) : Statement (.call adr) := rfl

theorem ccc (cc : Cond) (adr : Addr) : Statement (.ccc cc adr) := by
  cases cc <;> rfl

theorem ret : Statement (.ret) := rfl

theorem rcc (cc : Cond) : Statement (.rcc cc) := by
  cases cc <;> rfl

theorem rst (n : BitVec 3) : Statement (.rst n) := by
  revert n
  simp only [Statement, encode, List.length_cons, List.length_nil, List.headD_cons]
  decide

theorem pchl : Statement (.pchl) := rfl

theorem pushRp (rp : StackPair) : Statement (.pushRp rp) := by
  cases rp <;> rfl

theorem pushPsw : Statement (.pushPsw) := rfl

theorem popRp (rp : StackPair) : Statement (.popRp rp) := by
  cases rp <;> rfl

theorem popPsw : Statement (.popPsw) := rfl

theorem xthl : Statement (.xthl) := rfl

theorem sphl : Statement (.sphl) := rfl

theorem inp (port : Byte) : Statement (.inp port) := rfl

theorem out (port : Byte) : Statement (.out port) := rfl

theorem ei : Statement (.ei) := rfl

theorem di : Statement (.di) := rfl

theorem hlt : Statement (.hlt) := rfl

theorem nop : Statement (.nop) := rfl

theorem nopAlt (n : BitVec 3) : Statement (.nopAlt n) := by
  revert n
  simp only [Statement, encode, List.length_cons, List.length_nil, List.headD_cons]
  decide

theorem jmpAlt (adr : Addr) : Statement (.jmpAlt adr) := rfl

theorem retAlt : Statement (.retAlt) := rfl

theorem callAlt (p : BitVec 2) (adr : Addr) : Statement (.callAlt p adr) := by
  revert p
  simp only [Statement, encode, encodeF3, List.length_cons, List.length_nil, List.headD_cons]
  decide

end Sys2Proof.Laws.EncodedLength
end

