-- ==== Sys2Proof/Laws/Step.lean ====
section
/-! SUPPORT. The step: what it can do, said once, and that the decoder rejects no bytes the fetch reads. -/

namespace Sys2Proof.Machine

/-- Everything a step can do: wait while halted, or run the instruction the fetched bytes decode to, or the decoding gap. -/
theorem step_cases (s : State) :
    (s.halted = true ∧ step s = .next s) ∨
    (∃ i rest, s.halted = false ∧ decode s.fetch = .ok (i, rest) ∧ step s = exec i s.beginStep) ∨
    (∃ e, s.halted = false ∧ decode s.fetch = .error e ∧ step s = .fault (.decodeGap (s.memRead s.pc))) := by
  unfold step
  cases hh : s.halted with
  | true => exact .inl ⟨rfl, rfl⟩
  | false =>
    cases hd : decode s.fetch with
    | ok r => exact .inr (.inl ⟨r.1, r.2, rfl, rfl, rfl⟩)
    | error e => exact .inr (.inr ⟨e, rfl, rfl, rfl⟩)

@[simp] theorem StepsThrough_nil (s : State) : StepsThrough s [] := trivial

@[simp] theorem StepsThrough_cons (s t : State) (ts : List State) :
    StepsThrough s (t :: ts) ↔ s.halted = false ∧ step s = .next t ∧ StepsThrough t ts := Iff.rfl

@[simp] theorem totalCost_nil : totalCost [] = 0 := rfl

@[simp] theorem totalCost_cons (t : State) (ts : List State) : totalCost (t :: ts) = t.cycles + totalCost ts := rfl

/-- No opcode byte is a decoding gap (R91). -/
theorem decodeOpcode_ne_none (op b2 b3 : Byte) : decodeOpcode op b2 b3 ≠ none := by
  have : (field76 op).toNat < 4 := (field76 op).isLt
  unfold decodeOpcode
  split <;> simp_all
  omega

theorem opcodeLength_cases (op : Byte) : opcodeLength op = 1 ∨ opcodeLength op = 2 ∨ opcodeLength op = 3 := by
  unfold opcodeLength
  split
  · simp
  · split <;> simp

/-- The fetch reads the opcode byte first, and as many bytes as its length. -/
theorem fetch_eq (s : State) : s.fetch =
    (if opcodeLength (s.memRead s.pc) = 1 then [s.memRead s.pc]
    else if opcodeLength (s.memRead s.pc) = 2 then [s.memRead s.pc, s.memRead (s.pc + 1)]
    else [s.memRead s.pc, s.memRead (s.pc + 1), s.memRead (s.pc + 1 + 1)]) := by
  unfold State.fetch
  rcases opcodeLength_cases (s.memRead s.pc) with h | h | h <;> simp [h, State.bytesFrom]

/-- A row is found for every opcode byte (R91). -/
theorem decodeRow_ok (op b2 b3 : Byte) (rest : List Byte) :
    ∃ i, decodeOpcode op b2 b3 = some i ∧ decodeRow op b2 b3 rest = .ok (i, rest) := by
  unfold decodeRow
  cases hd : decodeOpcode op b2 b3 with
  | none => exact absurd hd (decodeOpcode_ne_none _ _ _)
  | some i => exact ⟨i, rfl, rfl⟩

theorem decode_one {op : Byte} (h : opcodeLength op = 1) (rest : List Byte) :
    decode (op :: rest) = decodeRow op 0 0 rest := by
  simp [decode, h]

theorem decode_two {op : Byte} (h : opcodeLength op = 2) (b2 : Byte) (rest : List Byte) :
    decode (op :: b2 :: rest) = decodeRow op b2 0 rest := by
  simp [decode, h]

theorem decode_three {op : Byte} (h : opcodeLength op = 3) (b2 b3 : Byte) (rest : List Byte) :
    decode (op :: b2 :: b3 :: rest) = decodeRow op b2 b3 rest := by
  simp [decode, h]

/-- The bytes a fetch reads decode to an instruction with none left over, and the same instruction is what the three bytes
at pc decode to (R91, R100). -/
theorem decode_fetch (s : State) : ∃ i, decode s.fetch = .ok (i, []) ∧
    ∃ rest, decode [s.memRead s.pc, s.memRead (s.pc + 1), s.memRead (s.pc + 1 + 1)] = .ok (i, rest) := by
  rw [fetch_eq]
  rcases opcodeLength_cases (s.memRead s.pc) with h | h | h
  · obtain ⟨i, hi, hd⟩ := decodeRow_ok (s.memRead s.pc) 0 0 []
    exact ⟨i, by rw [h, if_pos rfl, decode_one h, hd], _, by rw [decode_one h, decodeRow, hi]⟩
  · obtain ⟨i, hi, hd⟩ := decodeRow_ok (s.memRead s.pc) (s.memRead (s.pc + 1)) 0 []
    exact ⟨i, by rw [h, if_neg (by decide), if_pos rfl, decode_two h, hd], _, by rw [decode_two h, decodeRow, hi]⟩
  · obtain ⟨i, hi, hd⟩ := decodeRow_ok (s.memRead s.pc) (s.memRead (s.pc + 1)) (s.memRead (s.pc + 1 + 1)) []
    exact ⟨i, by rw [h, if_neg (by decide), if_neg (by decide), decode_three h, hd], _, by rw [decode_three h, hd]⟩

/-- A step of a core that is not halted runs some instruction. -/
theorem step_eq_exec {s : State} (h : s.halted = false) :
    ∃ i, decode s.fetch = .ok (i, []) ∧ step s = exec i s.beginStep := by
  obtain ⟨i, hi, _⟩ := decode_fetch s
  refine ⟨i, hi, ?_⟩
  unfold step
  simp [h, hi]

/-- Every instruction answers a next state: no meaning faults or refuses (R301). -/
theorem exec_next (i : Instr) (s : State) : ∃ t, exec i s = .next t := by
  cases i <;> exact ⟨_, rfl⟩

/-- What a step leads to: the halted state itself, or what an instruction leads to. -/
theorem step_next_cases {s t : State} (h : step s = .next t) :
    (s.halted = true ∧ t = s) ∨ (s.halted = false ∧ ∃ i, exec i s.beginStep = .next t) := by
  rcases step_cases s with ⟨hh, hs⟩ | ⟨i, _, hh, _, hs⟩ | ⟨_, _, _, hs⟩
  · exact .inl ⟨hh, by rw [hs] at h; injection h with h; exact h.symm⟩
  · exact .inr ⟨hh, i, hs ▸ h⟩
  · rw [hs] at h; cases h

end Sys2Proof.Machine
end

