-- ==== Sys2Proof/Tests/Slice0.lean ====
section
/-! SUPPORT. Tests: ill-formed terms refused, every constructor's decoding from a word written out bit by bit, one-step vectors, and a witness for the hypotheses of each statement. Expected results are those of spec/95_test_vectors.md, named by its ids, or follow by hand from the rule named. -/

open Sys2Proof Sys2Proof.Machine

namespace Sys2Proof.Tests

/-! ### Well-formedness: an ill-formed term for each check -/

theorem test_wellFormed_refuses_nopAlt_zero : (Instr.nopAlt 0).wellFormed = false := by decide

theorem test_wellFormed_refuses_callAlt_zero : (Instr.callAlt 0 0x3000).wellFormed = false := by decide

theorem test_wellFormed_accepts : (Instr.nopAlt 7).wellFormed = true ∧ (Instr.callAlt 3 0x3000).wellFormed = true := by decide

/-! ### Decoding: one word for each constructor, from the encoding of its rule -/

theorem test_decode_data_transfer :
    decode [0b01000001] = .ok (.movRR .b .c, []) ∧ decode [0b01011110] = .ok (.movRM .e, []) ∧
    decode [0b01110010] = .ok (.movMR .d, []) ∧ decode [0b00010110, 0x9C] = .ok (.mviR .d 0x9C, []) ∧
    decode [0b00110110, 0x42] = .ok (.mviM 0x42, []) ∧ decode [0b00110001, 0x00, 0x24] = .ok (.lxi .sp 0x2400, []) ∧
    decode [0b00111010, 0x00, 0x21] = .ok (.lda 0x2100, []) ∧ decode [0b00110010, 0xFF, 0x3F] = .ok (.sta 0x3FFF, []) ∧
    decode [0b00101010, 0x34, 0x12] = .ok (.lhld 0x1234, []) ∧ decode [0b00100010, 0x34, 0x12] = .ok (.shld 0x1234, []) ∧
    decode [0b00001010] = .ok (.ldax .bc, []) ∧ decode [0b00010010] = .ok (.stax .de, []) ∧
    decode [0b11101011] = .ok (.xchg, []) :=
  ⟨rfl, rfl, rfl, rfl, rfl, rfl, rfl, rfl, rfl, rfl, rfl, rfl, rfl⟩

theorem test_decode_add_subtract :
    decode [0b10000000] = .ok (.addR .b, []) ∧ decode [0b10000110] = .ok (.addM, []) ∧
    decode [0b11000110, 0xFB] = .ok (.adi 0xFB, []) ∧ decode [0b10001001] = .ok (.adcR .c, []) ∧
    decode [0b10001110] = .ok (.adcM, []) ∧ decode [0b11001110, 0x42] = .ok (.aci 0x42, []) ∧
    decode [0b10010010] = .ok (.subR .d, []) ∧ decode [0b10010110] = .ok (.subM, []) ∧
    decode [0b11010110, 0x01] = .ok (.sui 0x01, []) ∧ decode [0b10011101] = .ok (.sbbR .l, []) ∧
    decode [0b10011110] = .ok (.sbbM, []) ∧ decode [0b11011110, 0x01] = .ok (.sbi 0x01, []) :=
  ⟨rfl, rfl, rfl, rfl, rfl, rfl, rfl, rfl, rfl, rfl, rfl, rfl⟩

theorem test_decode_logical_compare :
    decode [0b10100011] = .ok (.anaR .e, []) ∧ decode [0b10100110] = .ok (.anaM, []) ∧
    decode [0b11100110, 0x0F] = .ok (.ani 0x0F, []) ∧ decode [0b10101100] = .ok (.xraR .h, []) ∧
    decode [0b10101110] = .ok (.xraM, []) ∧ decode [0b11101110, 0x81] = .ok (.xri 0x81, []) ∧
    decode [0b10110111] = .ok (.oraR .a, []) ∧ decode [0b10110110] = .ok (.oraM, []) ∧
    decode [0b11110110, 0x80] = .ok (.ori 0x80, []) ∧ decode [0b10111011] = .ok (.cmpR .e, []) ∧
    decode [0b10111110] = .ok (.cmpM, []) ∧ decode [0b11111110, 0x40] = .ok (.cpi 0x40, []) :=
  ⟨rfl, rfl, rfl, rfl, rfl, rfl, rfl, rfl, rfl, rfl, rfl, rfl⟩

theorem test_decode_increment_rotate :
    decode [0b00111100] = .ok (.inrR .a, []) ∧ decode [0b00110100] = .ok (.inrM, []) ∧
    decode [0b00011101] = .ok (.dcrR .e, []) ∧ decode [0b00110101] = .ok (.dcrM, []) ∧
    decode [0b00000011] = .ok (.inx .bc, []) ∧ decode [0b00111011] = .ok (.dcx .sp, []) ∧
    decode [0b00101001] = .ok (.dad .hl, []) ∧ decode [0b00000111] = .ok (.rlc, []) ∧
    decode [0b00001111] = .ok (.rrc, []) ∧ decode [0b00010111] = .ok (.ral, []) ∧ decode [0b00011111] = .ok (.rar, []) ∧
    decode [0b00100111] = .ok (.daa, []) ∧ decode [0b00101111] = .ok (.cma, []) ∧ decode [0b00110111] = .ok (.stc, []) ∧
    decode [0b00111111] = .ok (.cmc, []) :=
  ⟨rfl, rfl, rfl, rfl, rfl, rfl, rfl, rfl, rfl, rfl, rfl, rfl, rfl, rfl, rfl⟩

theorem test_decode_branch :
    decode [0b11000011, 0x34, 0x12] = .ok (.jmp 0x1234, []) ∧
    decode [0b11101010, 0x34, 0x12] = .ok (.jcc .pe 0x1234, []) ∧
    decode [0b11001101, 0x00, 0x30] = .ok (.call 0x3000, []) ∧
    decode [0b11010100, 0x00, 0x30] = .ok (.ccc .nc 0x3000, []) ∧ decode [0b11001001] = .ok (.ret, []) ∧
    decode [0b11111000] = .ok (.rcc .m, []) ∧ decode [0b11001111] = .ok (.rst 1, []) ∧
    decode [0b11101001] = .ok (.pchl, []) :=
  ⟨rfl, rfl, rfl, rfl, rfl, rfl, rfl, rfl⟩

theorem test_decode_stack_io_control :
    decode [0b11000101] = .ok (.pushRp .bc, []) ∧ decode [0b11110101] = .ok (.pushPsw, []) ∧
    decode [0b11010001] = .ok (.popRp .de, []) ∧ decode [0b11110001] = .ok (.popPsw, []) ∧
    decode [0b11100011] = .ok (.xthl, []) ∧ decode [0b11111001] = .ok (.sphl, []) ∧
    decode [0b11011011, 0x03] = .ok (.inp 3, []) ∧ decode [0b11010011, 0x04] = .ok (.out 4, []) ∧
    decode [0b11111011] = .ok (.ei, []) ∧ decode [0b11110011] = .ok (.di, []) ∧ decode [0b01110110] = .ok (.hlt, []) ∧
    decode [0b00000000] = .ok (.nop, []) :=
  ⟨rfl, rfl, rfl, rfl, rfl, rfl, rfl, rfl, rfl, rfl, rfl, rfl⟩

theorem test_decode_alternates :
    decode [0b00001000] = .ok (.nopAlt 1, []) ∧ decode [0b00111000] = .ok (.nopAlt 7, []) ∧
    decode [0b11001011, 0x34, 0x12] = .ok (.jmpAlt 0x1234, []) ∧ decode [0b11011001] = .ok (.retAlt, []) ∧
    decode [0b11101101, 0x00, 0x30] = .ok (.callAlt 2 0x3000, []) :=
  ⟨rfl, rfl, rfl, rfl, rfl⟩

/-- Too few bytes are refused by name, and an instruction takes only its own bytes. -/
theorem test_decode_refuses_truncated :
    decode [] = .error .noBytes ∧ decode [0xC3, 0x34] = .error (.truncated 0xC3) ∧
    decode [0x41, 0xFF] = .ok (.movRR .b .c, [0xFF]) :=
  ⟨rfl, rfl, rfl⟩

/-- The host's numbering: an operand word above `nbits` is zero, and the first byte is the lowest. -/
theorem test_decodeTableWord :
    decodeTableWord 24 0x1234C3 = some (.jmp 0x1234) ∧ decodeTableWord 8 0xC3 = some (.jmp 0x0000) ∧
    decodeTableWord 8 0x1176 = some .hlt :=
  ⟨rfl, rfl, rfl⟩

/-! ### One step of one instruction -/

/-- Whether a step of `s`, with the bytes `bs` placed at its pc, leads to a state that passes `P`. -/
def runs (bs : List Byte) (s : State) (P : State → Bool) : Bool :=
  match step (s.placeBytes s.pc bs) with
  | .next t => P t
  | .fault _ => false
  | .refused _ => false

/-- The flags in the order of the vectors: S Z AC P CY. -/
def fl (s z ac p cy : Nat) : Flags := ⟨s == 1, z == 1, ac == 1, p == 1, cy == 1⟩

/-- HL = 0x2100, with `v` in the cell there. -/
def atM (v : Byte) : State := { State.reset with h := 0x21, mem := State.reset.mem.write 0x2100 v }

/-- sp = 0x23FE, with the word `hi : lo` at the top of the stack. -/
def onStack (hi lo : Byte) : State :=
  { State.reset with sp := 0x23FE, mem := (State.reset.mem.write 0x23FE lo).write 0x23FF hi }

/-! #### Data transfer -/

/-- T1. -/
theorem test_mov_rr : runs [0x41] { State.reset with b := 0x11, c := 0x5A }
    (fun t => t.b == 0x5A && t.c == 0x5A && t.pc == 1 && t.cycles == 5) = true := by decide

/-- T2. -/
theorem test_mov_rr_same : runs [0x7F] { State.reset with a := 0x33 }
    (fun t => t.a == 0x33 && t.pc == 1 && t.cycles == 5) = true := by decide

/-- T3. -/
theorem test_mov_rm : runs [0x5E] (atM 0x77)
    (fun t => t.e == 0x77 && t.cycles == 7) = true := by decide

/-- T4. -/
theorem test_mov_rm_address_before_write : runs [0x66] (atM 0x30)
    (fun t => t.h == 0x30 && t.l == 0x00 && t.cycles == 7) = true := by decide

/-- T5. -/
theorem test_mov_mr : runs [0x72] { atM 0 with d := 0x99 }
    (fun t => t.mem.read 0x2100 == 0x99 && t.cycles == 7) = true := by decide

/-- T6. -/
theorem test_mov_mr_rom_dropped : runs [0x77] { State.reset with l := 0x50, a := 0x99 }
    (fun t => t.mem.read 0x50 == 0 && decide (t.diags = [⟨0x0050, 0x99⟩]) && t.pc == 1 && t.cycles == 7) = true := by decide

/-- T7. -/
theorem test_mvi_r : runs [0x16, 0x9C] State.reset
    (fun t => t.d == 0x9C && t.pc == 2 && t.cycles == 7) = true := by decide

/-- T8. -/
theorem test_mvi_m_mirror : runs [0x36, 0x42] { State.reset with h := 0x61 }
    (fun t => t.mem.read 0x2100 == 0x42 && t.mem.read 0x6100 == 0 && t.mem.read 0x4100 == 0 && t.cycles == 10) = true := by decide

/-- T9. -/
theorem test_lxi_h : runs [0x21, 0x34, 0x12] State.reset
    (fun t => t.h == 0x12 && t.l == 0x34 && t.pc == 3 && t.cycles == 10) = true := by decide

/-- T10. -/
theorem test_lxi_sp : runs [0x31, 0x00, 0x24] State.reset
    (fun t => t.sp == 0x2400 && t.cycles == 10) = true := by decide

/-- T11. -/
theorem test_lda : runs [0x3A, 0x00, 0x21] (atM 0xE7)
    (fun t => t.a == 0xE7 && decide (t.flags = fl 0 0 0 0 0) && t.cycles == 13) = true := by decide

/-- T12. -/
theorem test_sta : runs [0x32, 0xFF, 0x3F] { State.reset with a := 0x81 }
    (fun t => t.mem.read 0x3FFF == 0x81 && t.cycles == 13) = true := by decide

/-- T13. -/
theorem test_lhld : runs [0x2A, 0x00, 0x21] { State.reset with mem := [(0x2100, 0xCD), (0x2101, 0xAB)] }
    (fun t => t.l == 0xCD && t.h == 0xAB && t.cycles == 16) = true := by decide

/-- T14. -/
theorem test_lhld_wraps : runs [0x2A, 0xFF, 0xFF] { State.reset with pc := 0x0100, mem := [(0x0000, 0x22), (0xFFFF, 0x11)] }
    (fun t => t.l == 0x11 && t.h == 0x22 && t.pc == 0x0103) = true := by decide

/-- T15. -/
theorem test_shld : runs [0x22, 0x00, 0x21] { State.reset with h := 0xBE, l := 0xEF }
    (fun t => t.mem.read 0x2100 == 0xEF && t.mem.read 0x2101 == 0xBE && t.cycles == 16) = true := by decide

/-- M6. -/
theorem test_shld_edge_of_ram : runs [0x22, 0x00, 0x40] { State.reset with h := 0xBE, l := 0xEF }
    (fun t => t.mem.read 0x4000 == 0xEF && t.mem.read 0x2001 == 0xBE && t.mem.read 0x4001 == 0) = true := by decide

/-- T16. -/
theorem test_ldax_b : runs [0x0A] { State.reset with b := 0x21, mem := [(0x2100, 0x3C)] }
    (fun t => t.a == 0x3C && t.cycles == 7) = true := by decide

/-- T17. -/
theorem test_ldax_d : runs [0x1A] { State.reset with d := 0x21, e := 0x01, mem := [(0x2101, 0x4D)] }
    (fun t => t.a == 0x4D && t.cycles == 7) = true := by decide

/-- T18. -/
theorem test_stax_b : runs [0x02] { State.reset with b := 0x21, c := 0x02, a := 0x5E }
    (fun t => t.mem.read 0x2102 == 0x5E && t.cycles == 7) = true := by decide

/-- T19. -/
theorem test_stax_d : runs [0x12] { State.reset with d := 0x21, e := 0x03, a := 0x6F }
    (fun t => t.mem.read 0x2103 == 0x6F && t.cycles == 7) = true := by decide

/-- T20. -/
theorem test_xchg : runs [0xEB] { State.reset with h := 0x12, l := 0x34, d := 0xAB, e := 0xCD }
    (fun t => t.h == 0xAB && t.l == 0xCD && t.d == 0x12 && t.e == 0x34 && t.cycles == 4) = true := by decide

/-! #### Arithmetic -/

/-- A1. -/
theorem test_add_r : runs [0x80] { State.reset with a := 0x05, b := 0xFB }
    (fun t => t.a == 0x00 && decide (t.flags = fl 0 1 1 1 1) && t.cycles == 4) = true := by decide

/-- A2. -/
theorem test_add_m : runs [0x86] { atM 0x34 with a := 0x12 }
    (fun t => t.a == 0x46 && decide (t.flags = fl 0 0 0 0 0) && t.cycles == 7) = true := by decide

/-- A3. -/
theorem test_adi : runs [0xC6, 0x01] { State.reset with a := 0x7F }
    (fun t => t.a == 0x80 && decide (t.flags = fl 1 0 1 0 0) && t.cycles == 7) = true := by decide

/-- A4. -/
theorem test_adc_r : runs [0x89] { State.reset with a := 0x3D, c := 0x42, flags := fl 0 0 0 0 1 }
    (fun t => t.a == 0x80 && decide (t.flags = fl 1 0 1 0 0) && t.cycles == 4) = true := by decide

/-- A5. -/
theorem test_adc_m : runs [0x8E] { atM 0x00 with a := 0xFF, flags := fl 0 0 0 0 1 }
    (fun t => t.a == 0x00 && decide (t.flags = fl 0 1 1 1 1) && t.cycles == 7) = true := by decide

/-- A6. -/
theorem test_aci : runs [0xCE, 0x42] { State.reset with a := 0x14 }
    (fun t => t.a == 0x56 && decide (t.flags = fl 0 0 0 1 0) && t.cycles == 7) = true := by decide

/-- A7. -/
theorem test_sub_r : runs [0x90] { State.reset with a := 0x3E, b := 0x3E }
    (fun t => t.a == 0x00 && decide (t.flags = fl 0 1 1 1 0) && t.cycles == 4) = true := by decide

/-- A8. -/
theorem test_sub_m : runs [0x96] { atM 0x06 with a := 0x05 }
    (fun t => t.a == 0xFF && decide (t.flags = fl 1 0 0 1 1) && t.cycles == 7) = true := by decide

/-- A9. -/
theorem test_sui : runs [0xD6, 0x01] State.reset
    (fun t => t.a == 0xFF && decide (t.flags = fl 1 0 0 1 1) && t.cycles == 7) = true := by decide

/-- A10. -/
theorem test_sui_zero : runs [0xD6, 0x00] State.reset
    (fun t => t.a == 0x00 && decide (t.flags = fl 0 1 1 1 0) && t.cycles == 7) = true := by decide

/-- A11. -/
theorem test_sbb_r : runs [0x9D] { State.reset with a := 0x04, l := 0x02, flags := fl 0 0 0 0 1 }
    (fun t => t.a == 0x01 && decide (t.flags = fl 0 0 1 0 0) && t.cycles == 4) = true := by decide

/-- A12. -/
theorem test_sbb_m : runs [0x9E] { atM 0x00 with flags := fl 0 0 0 0 1 }
    (fun t => t.a == 0xFF && decide (t.flags = fl 1 0 0 1 1) && t.cycles == 7) = true := by decide

/-- A13. -/
theorem test_sbi : runs [0xDE, 0x01] { State.reset with a := 0x10 }
    (fun t => t.a == 0x0F && decide (t.flags = fl 0 0 0 1 0) && t.cycles == 7) = true := by decide

/-- A14. -/
theorem test_inr_r : runs [0x04] { State.reset with b := 0xFF, flags := fl 0 0 0 0 1 }
    (fun t => t.b == 0x00 && decide (t.flags = fl 0 1 1 1 1) && t.cycles == 5) = true := by decide

/-- A15. -/
theorem test_inr_m : runs [0x34] (atM 0x0F)
    (fun t => t.mem.read 0x2100 == 0x10 && decide (t.flags = fl 0 0 1 0 0) && t.cycles == 10) = true := by decide

/-- A16. -/
theorem test_dcr_r : runs [0x1D] { State.reset with e := 0x01 }
    (fun t => t.e == 0x00 && decide (t.flags = fl 0 1 1 1 0) && t.cycles == 5) = true := by decide

/-- A17. -/
theorem test_dcr_m : runs [0x35] (atM 0x00)
    (fun t => t.mem.read 0x2100 == 0xFF && decide (t.flags = fl 1 0 0 1 0) && t.cycles == 10) = true := by decide

/-- A18. -/
theorem test_inx : runs [0x03] { State.reset with b := 0xFF, c := 0xFF }
    (fun t => t.b == 0 && t.c == 0 && decide (t.flags = fl 0 0 0 0 0) && t.cycles == 5) = true := by decide

/-- A19. -/
theorem test_dcx : runs [0x3B] State.reset
    (fun t => t.sp == 0xFFFF && decide (t.flags = fl 0 0 0 0 0) && t.cycles == 5) = true := by decide

/-- A20. -/
theorem test_dad_b : runs [0x09] { State.reset with h := 0xFF, l := 0xFF, c := 0x01 }
    (fun t => t.h == 0 && t.l == 0 && decide (t.flags = fl 0 0 0 0 1) && t.cycles == 10) = true := by decide

/-- A22. -/
theorem test_dad_sp : runs [0x39] { State.reset with h := 0x12, l := 0x34, sp := 0x2400 }
    (fun t => t.h == 0x36 && t.l == 0x34 && decide (t.flags = fl 0 0 0 0 0)) = true := by decide

/-- A26, two_step. -/
theorem test_daa_two_step : runs [0x27] { State.reset with a := 0xFA }
    (fun t => t.a == 0x00 && decide (t.flags = fl 0 1 1 1 0) && t.cycles == 4) = true := by decide

/-- A26, silicon. -/
theorem test_daa_silicon : runs [0x27] { State.reset with a := 0xFA, cfg := { Config.defaults with daaMode := .silicon } }
    (fun t => t.a == 0x60 && decide (t.flags = fl 0 0 1 1 1) && t.cycles == 4) = true := by decide

/-! #### Logical, compare, rotate -/

/-- L1. -/
theorem test_ana_r : runs [0xA0] { State.reset with a := 0xFC, b := 0x0F }
    (fun t => t.a == 0x0C && decide (t.flags = fl 0 0 1 1 0) && t.cycles == 4) = true := by decide

/-- L4. -/
theorem test_ana_a : runs [0xA7] State.reset
    (fun t => t.a == 0x00 && decide (t.flags = fl 0 1 0 1 0) && t.cycles == 4) = true := by decide

/-- L2. -/
theorem test_ana_m : runs [0xA6] { atM 0x0F with a := 0xF0 }
    (fun t => t.a == 0x00 && decide (t.flags = fl 0 1 1 1 0) && t.cycles == 7) = true := by decide

/-- L3. -/
theorem test_ani : runs [0xE6, 0x0F] { State.reset with a := 0x3A }
    (fun t => t.a == 0x0A && decide (t.flags = fl 0 0 1 1 0) && t.cycles == 7) = true := by decide

/-- L5. -/
theorem test_xra_r : runs [0xA9] { State.reset with a := 0x5C, c := 0x78 }
    (fun t => t.a == 0x24 && decide (t.flags = fl 0 0 0 1 0) && t.cycles == 4) = true := by decide

/-- L6. -/
theorem test_xra_m : runs [0xAE] { atM 0x0F with a := 0xFF }
    (fun t => t.a == 0xF0 && decide (t.flags = fl 1 0 0 1 0) && t.cycles == 7) = true := by decide

/-- L7. -/
theorem test_xri : runs [0xEE, 0x81] { State.reset with a := 0x3B }
    (fun t => t.a == 0xBA && decide (t.flags = fl 1 0 0 0 0) && t.cycles == 7) = true := by decide

/-- L8. -/
theorem test_ora_r : runs [0xB2] { State.reset with a := 0x33, d := 0x0C }
    (fun t => t.a == 0x3F && decide (t.flags = fl 0 0 0 1 0) && t.cycles == 4) = true := by decide

/-- L9. -/
theorem test_ora_m : runs [0xB6] (atM 0x00)
    (fun t => t.a == 0x00 && decide (t.flags = fl 0 1 0 1 0) && t.cycles == 7) = true := by decide

/-- L10. -/
theorem test_ori : runs [0xF6, 0x80] { State.reset with a := 0x01 }
    (fun t => t.a == 0x81 && decide (t.flags = fl 1 0 0 1 0) && t.cycles == 7) = true := by decide

/-- L11. -/
theorem test_cmp_r_greater : runs [0xBB] { State.reset with a := 0x0A, e := 0x05 }
    (fun t => t.a == 0x0A && decide (t.flags = fl 0 0 1 1 0) && t.cycles == 4) = true := by decide

/-- L13. -/
theorem test_cmp_r_less : runs [0xBB] { State.reset with a := 0x02, e := 0x05 }
    (fun t => t.a == 0x02 && decide (t.flags = fl 1 0 0 0 1) && t.cycles == 4) = true := by decide

/-- L14. -/
theorem test_cmp_m : runs [0xBE] { atM 0x7F with a := 0x80 }
    (fun t => t.a == 0x80 && decide (t.flags = fl 0 0 0 0 0) && t.cycles == 7) = true := by decide

/-- L15. -/
theorem test_cpi_equal : runs [0xFE, 0x40] { State.reset with a := 0x40 }
    (fun t => t.a == 0x40 && decide (t.flags = fl 0 1 1 1 0) && t.cycles == 7) = true := by decide

/-- L16. -/
theorem test_cpi_less : runs [0xFE, 0xFF] State.reset
    (fun t => t.a == 0x00 && decide (t.flags = fl 0 0 0 0 1) && t.cycles == 7) = true := by decide

/-- L17. -/
theorem test_rlc : runs [0x07] { State.reset with a := 0xF2 }
    (fun t => t.a == 0xE5 && decide (t.flags = fl 0 0 0 0 1) && t.cycles == 4) = true := by decide

/-- L18. -/
theorem test_rrc : runs [0x0F] { State.reset with a := 0xF2, flags := fl 0 0 0 0 1 }
    (fun t => t.a == 0x79 && decide (t.flags = fl 0 0 0 0 0) && t.cycles == 4) = true := by decide

/-- L19. -/
theorem test_ral : runs [0x17] { State.reset with a := 0xB5 }
    (fun t => t.a == 0x6A && decide (t.flags = fl 0 0 0 0 1) && t.cycles == 4) = true := by decide

/-- L20. -/
theorem test_rar : runs [0x1F] { State.reset with a := 0x6A, flags := fl 0 0 0 0 1 }
    (fun t => t.a == 0xB5 && decide (t.flags = fl 0 0 0 0 0) && t.cycles == 4) = true := by decide

/-- L21. -/
theorem test_cma : runs [0x2F] { State.reset with a := 0x51 }
    (fun t => t.a == 0xAE && decide (t.flags = fl 0 0 0 0 0) && t.cycles == 4) = true := by decide

/-- L22. -/
theorem test_cmc : runs [0x3F] { State.reset with flags := fl 0 0 0 0 1 }
    (fun t => decide (t.flags = fl 0 0 0 0 0) && t.cycles == 4) = true := by decide

/-- L23. -/
theorem test_stc : runs [0x37] State.reset
    (fun t => decide (t.flags = fl 0 0 0 0 1) && t.cycles == 4) = true := by decide

/-! #### Branch -/

/-- B1. -/
theorem test_jmp_wraps : runs [0xC3, 0x34, 0x12] { State.reset with pc := 0xFFFF }
    (fun t => t.pc == 0x1234 && t.cycles == 10) = true := by decide

/-- B2. -/
theorem test_jcc_taken : runs [0xCA, 0x34, 0x12] { State.reset with pc := 0x0200, flags := fl 0 1 0 0 0 }
    (fun t => t.pc == 0x1234 && t.cycles == 10) = true := by decide

/-- B3. -/
theorem test_jcc_not_taken : runs [0xCA, 0x34, 0x12] { State.reset with pc := 0x0200 }
    (fun t => t.pc == 0x0203 && t.cycles == 10) = true := by decide

/-- B4. -/
theorem test_call : runs [0xCD, 0x00, 0x30] { State.reset with pc := 0x0100, sp := 0x2400 }
    (fun t => t.mem.read 0x23FF == 0x01 && t.mem.read 0x23FE == 0x03 && t.sp == 0x23FE && t.pc == 0x3000 && t.cycles == 17) = true := by decide

/-- B5. -/
theorem test_call_before_sp_is_set : runs [0xCD, 0x10, 0x00] State.reset
    (fun t => t.mem.read 0x3FFF == 0x00 && t.mem.read 0x3FFE == 0x03 && t.sp == 0xFFFE && t.pc == 0x0010 && t.cycles == 17) = true := by decide

/-- B6. -/
theorem test_ccc_taken : runs [0xD4, 0x00, 0x30] { State.reset with pc := 0x0200, sp := 0x2400 }
    (fun t => t.mem.read 0x23FF == 0x02 && t.mem.read 0x23FE == 0x03 && t.sp == 0x23FE && t.pc == 0x3000 && t.cycles == 17) = true := by decide

/-- B7. -/
theorem test_ccc_not_taken : runs [0xD4, 0x00, 0x30] { State.reset with pc := 0x0200, sp := 0x2400, flags := fl 0 0 0 0 1 }
    (fun t => t.pc == 0x0203 && t.sp == 0x2400 && t.cycles == 11) = true := by decide

/-- B8. -/
theorem test_ret : runs [0xC9] (onStack 0x01 0x03)
    (fun t => t.pc == 0x0103 && t.sp == 0x2400 && t.cycles == 10) = true := by decide

/-- B9. -/
theorem test_ret_reads_raw_cells : runs [0xC9] { State.reset with sp := 0xFFFE }
    (fun t => t.pc == 0x0000 && t.sp == 0x0000) = true := by decide

/-- B10. -/
theorem test_rcc_taken : runs [0xE8] { onStack 0x02 0x03 with flags := fl 0 0 0 1 0 }
    (fun t => t.pc == 0x0203 && t.sp == 0x2400 && t.cycles == 11) = true := by decide

/-- B11. -/
theorem test_rcc_not_taken : runs [0xE8] { State.reset with pc := 0x3000, sp := 0x23FE }
    (fun t => t.pc == 0x3001 && t.sp == 0x23FE && t.cycles == 5) = true := by decide

/-- B12. -/
theorem test_rst : runs [0xCF] { State.reset with pc := 0x0123, sp := 0x2400 }
    (fun t => t.mem.read 0x23FF == 0x01 && t.mem.read 0x23FE == 0x24 && t.sp == 0x23FE && t.pc == 0x0008 && t.cycles == 11) = true := by decide

/-- B13. -/
theorem test_pchl : runs [0xE9] { State.reset with h := 0x1A, l := 0x2B }
    (fun t => t.pc == 0x1A2B && t.cycles == 5) = true := by decide

/-! #### Stack, I/O and machine control -/

/-- K1. -/
theorem test_push_rp : runs [0xC5] { State.reset with b := 0x12, c := 0x34, sp := 0x2400 }
    (fun t => t.mem.read 0x23FF == 0x12 && t.mem.read 0x23FE == 0x34 && t.sp == 0x23FE && t.cycles == 11) = true := by decide

/-- K2. -/
theorem test_push_psw : runs [0xF5] { State.reset with a := 0x83, flags := fl 1 0 1 0 0, sp := 0x2400 }
    (fun t => t.mem.read 0x23FF == 0x83 && t.mem.read 0x23FE == 0x92 && t.cycles == 11) = true := by decide

/-- K3. -/
theorem test_push_psw_fixed_bits : runs [0xF5] { State.reset with sp := 0x2400 }
    (fun t => t.mem.read 0x23FF == 0x00 && t.mem.read 0x23FE == 0x02) = true := by decide

/-- K4. -/
theorem test_pop_rp : runs [0xD1] (onStack 0x12 0x34)
    (fun t => t.d == 0x12 && t.e == 0x34 && t.sp == 0x2400 && t.cycles == 10) = true := by decide

/-- K5. -/
theorem test_pop_psw : runs [0xF1] (onStack 0x5A 0xFF)
    (fun t => t.a == 0x5A && decide (t.flags = fl 1 1 1 1 1) && pswByte t.flags == 0xD7 && t.cycles == 10) = true := by decide

/-- K7. -/
theorem test_xthl : runs [0xE3] { onStack 0x12 0x34 with h := 0xAB, l := 0xCD }
    (fun t => t.h == 0x12 && t.l == 0x34 && t.mem.read 0x23FE == 0xCD && t.mem.read 0x23FF == 0xAB && t.sp == 0x23FE && t.cycles == 18) = true := by decide

/-- K8. -/
theorem test_sphl : runs [0xF9] { State.reset with h := 0x24 }
    (fun t => t.sp == 0x2400 && t.cycles == 5) = true := by decide

/-- K9. -/
theorem test_in_dip : runs [0xDB, 0x01] { State.reset with dip1 := 0x21 }
    (fun t => t.a == 0x21 && decide (t.flags = fl 0 0 0 0 0) && t.cycles == 10) = true := by decide

/-- K11, offset 3. -/
theorem test_in_shift_result : runs [0xDB, 0x03] { State.reset with shift := 0xABCD, offset := 3 }
    (fun t => t.a == 0x5E && t.pc == 2) = true := by decide

/-- K13. -/
theorem test_out_shift_offset : runs [0xD3, 0x02] { State.reset with a := 0xFF }
    (fun t => t.offset == 7 && t.cycles == 10) = true := by decide

/-- K14. -/
theorem test_out_shift_fill : runs [0xD3, 0x04] { State.reset with a := 0x12, shift := 0x3456 }
    (fun t => t.shift == 0x5612) = true := by decide

/-- K16. -/
theorem test_ei : runs [0xFB] State.reset
    (fun t => t.inte && t.cycles == 4) = true := by decide

/-- K17. -/
theorem test_di : runs [0xF3] { State.reset with inte := true }
    (fun t => !t.inte && t.cycles == 4) = true := by decide

/-- K18. -/
theorem test_hlt : runs [0x76] { State.reset with pc := 0x0010 }
    (fun t => t.halted && t.pc == 0x0011 && t.cycles == 7) = true := by decide

/-- K19. -/
theorem test_nop : runs [0x00] State.reset
    (fun t => t.pc == 1 && t.cycles == 4) = true := by decide

/-! #### Alternate encodings -/

/-- X1. -/
theorem test_nop_alternate : runs [0x38] State.reset
    (fun t => t.pc == 1 && t.cycles == 4) = true := by decide

/-- X2. -/
theorem test_jmp_alternate : runs [0xCB, 0x34, 0x12] State.reset
    (fun t => t.pc == 0x1234 && t.cycles == 10) = true := by decide

/-- X3. -/
theorem test_ret_alternate : runs [0xD9] (onStack 0x01 0x03)
    (fun t => t.pc == 0x0103 && t.sp == 0x2400 && t.cycles == 10) = true := by decide

/-- X4. -/
theorem test_call_alternate : runs [0xED, 0x00, 0x30] { State.reset with pc := 0x0100, sp := 0x2400 }
    (fun t => t.mem.read 0x23FF == 0x01 && t.mem.read 0x23FE == 0x03 && t.sp == 0x23FE && t.pc == 0x3000 && t.cycles == 17) = true := by decide

/-! ### Memory port, interrupts, batches, the host -/

/-- S6 and M2: where writes are redirected to. -/
theorem test_redirect :
    storeCell 0x4234 = some 0x2234 ∧ storeCell 0x6234 = some 0x2234 ∧ storeCell 0xFFFF = some 0x3FFF ∧
    storeCell 0x6000 = some 0x4000 ∧ storeCell 0x4000 = some 0x4000 ∧ storeCell 0x2000 = some 0x2000 ∧
    storeCell 0x8000 = some 0x4000 ∧ storeCell 0x1FFF = none := by decide

/-- M3: a mirror read returns the raw cell, or the redirected one when READ_REDIRECT is true. -/
theorem test_mirror_read :
    (State.reset.memWrite 0x6234 0x5A).memRead 0x6234 = 0x00 ∧
    ({ State.reset with cfg := { Config.defaults with readRedirect := true } }.memWrite 0x6234 0x5A).memRead 0x6234 = 0x5A := by
  decide

/-- M4: a push with sp = 0 lands in the redirected cells. -/
theorem test_push_wraps :
    (State.reset.push16 0x1234).mem = [(0x3FFE, 0x34), (0x3FFF, 0x12)] ∧ (State.reset.push16 0x1234).sp = 0xFFFE := by decide

/-- I1: an accepted request. -/
theorem test_interrupt_accepted :
    interrupt 0x0008 { State.reset with inte := true, pc := 0x0045, sp := 0x2400, halted := true } =
      .accepted { State.reset with mem := [(0x23FE, 0x45)], sp := 0x23FE, pc := 0x0008 } := by decide

/-- I2: a request while the latch is clear is not held. -/
theorem test_interrupt_not_accepted : interrupt 0x0008 State.reset = .notAccepted := by decide

/-- S2a, N = 1: one NOP, total 4. -/
theorem test_batch_one : (batch 1 State.reset).total = 4 ∧ (batch 1 State.reset).status = .done ∧
    (batch 1 State.reset).state.pc = 1 := by decide

/-- K18: a batch of a halted core returns (0, Halted). -/
theorem test_batch_halted : (batch 100 { State.reset with halted := true }).total = 0 ∧
    (batch 100 { State.reset with halted := true }).status = .halted := by decide

/-- The placed instruction is what the next step runs, also from a halted state. -/
theorem test_withFetchWord :
    step (State.reset.withFetchWord 8 0x76) =
      .next { State.reset with mem := [(0, 0x76)], halted := true, pc := 1, cycles := 7 } ∧
    step ({ State.reset with halted := true }.withFetchWord 24 0x1234C3) =
      .next { State.reset with mem := [(0, 0xC3), (1, 0x34), (2, 0x12)], pc := 0x1234, cycles := 10 } :=
  ⟨rfl, rfl⟩

/-! ### Witnesses: the hypotheses of each statement, and each of its clauses at the edge of its range -/

theorem test_witness_DecodeOfEncodeIsIdentity : (Instr.callAlt 2 0x3000).wellFormed = true := by decide

theorem test_witness_EncodeOfDecodeIsIdentity : decode [0x41, 0xFF] = .ok (.movRR .b .c, [0xFF]) := rfl

/-- The clauses of EveryOpcodeDecodesAtItsLength: two bytes, three, one. -/
theorem test_witness_EveryOpcodeDecodesAtItsLength :
    decode [0x06, 0x01, 0x02] = .ok (.mviR .b 0x01, [0x02]) ∧ decode [0xFC, 0x01, 0x02] = .ok (.ccc .m 0x0201, []) ∧
    decode [0xFF, 0x01, 0x02] = .ok (.rst 7, [0x01, 0x02]) :=
  ⟨rfl, rfl, rfl⟩

theorem test_witness_StepRunsDecodedInstruction : State.reset.halted = false ∧
    decode [State.reset.memRead State.reset.pc, State.reset.memRead (State.reset.pc + 1),
      State.reset.memRead (State.reset.pc + 2)] = .ok (.nop, [0, 0]) :=
  ⟨rfl, rfl⟩

theorem test_witness_HaltedStepChangesNothing : { State.reset with halted := true }.halted = true := by decide

/-- The two clauses of DifferenceFlags and DifferenceDraws, for SubtractionInstructions and CompareInstructions. -/
theorem test_witness_SubtractionInstructions : State.reset.cfg.subAcRule = .intel ∧
    { State.reset with cfg := { Config.defaults with subAcRule := .free } }.cfg.subAcRule = .free := by decide

/-- The three clauses of DecimalAdjust. -/
theorem test_witness_DecimalAdjust : State.reset.cfg.daaMode = .twoStep ∧
    { State.reset with cfg := { Config.defaults with daaMode := .silicon } }.cfg.daaMode = .silicon ∧
    { State.reset with cfg := { Config.defaults with daaMode := .either } }.cfg.daaMode = .either := by decide

/-- The corrections at the edge of their ranges: 0x09 and 0x0A below, 0x99 and 0x9A above (A24, A29). -/
theorem test_daa_edges :
    (daaTwoStep 0x09 false false).value = 0x09 ∧ (daaTwoStep 0x0A false false).value = 0x10 ∧
    (daaTwoStep 0x99 false false).value = 0x99 ∧ (daaTwoStep 0x9A false false).value = 0x00 ∧
    (daaSilicon 0x99 false false).value = 0x99 ∧ (daaSilicon 0x9A false false).value = 0x00 ∧
    (daaSilicon 0x9B false false).value = 0x01 := by decide

/-- The clauses of DaaModesDifferOnTwelveInputs: 0xFA with CY = 0; 0xF9, and 0xFA with CY = 1. -/
theorem test_witness_DaaModesDifferOnTwelveInputs :
    (0xFA ≤ (0xFA : Byte).toNat ∧ false = false) ∧ ¬(0xFA ≤ (0xF9 : Byte).toNat ∧ false = false) ∧
    ¬(0xFA ≤ (0xFA : Byte).toNat ∧ true = false) := by decide

theorem test_witness_AddThenSubtractRestores : Reg.b ≠ Reg.a := by decide

/-- Each condition both ways, for the clauses of CallInstructions and ReturnInstructions. -/
theorem test_witness_conditions :
    (∀ cc : Cond, cc = .nz ∨ cc = .nc ∨ cc = .po ∨ cc = .p → condHolds (fl 0 0 0 0 0) cc = true ∧
      condHolds (fl 1 1 1 1 1) cc = false) ∧
    ∀ cc : Cond, cc = .z ∨ cc = .c ∨ cc = .pe ∨ cc = .m → condHolds (fl 0 0 0 0 0) cc = false ∧
      condHolds (fl 1 1 1 1 1) cc = true :=
  ⟨fun cc => by cases cc <;> decide, fun cc => by cases cc <;> decide⟩

/-- The stack in RAM at both ends of the range, for CallThenReturn, PswRoundTrip, PushThenPopCopiesPair and, with the
latch set, InterruptThenReturn. -/
theorem test_witness_stack_in_ram :
    ({ State.reset with sp := 0x2002, inte := true }.mem.wf = true ∧
      0x2002 ≤ { State.reset with sp := 0x2002, inte := true }.sp.toNat ∧
      { State.reset with sp := 0x2002, inte := true }.sp.toNat ≤ 0x4001 ∧
      { State.reset with sp := 0x2002, inte := true }.inte = true) ∧
    { State.reset with sp := 0x4001, inte := true }.mem.wf = true ∧
      0x2002 ≤ { State.reset with sp := 0x4001, inte := true }.sp.toNat ∧
      { State.reset with sp := 0x4001, inte := true }.sp.toNat ≤ 0x4001 ∧
      { State.reset with sp := 0x4001, inte := true }.inte = true := by decide

/-- The clauses of InputFromPort under the default ports: 1, 2, 3, and the ports on either side, which no device has. -/
theorem test_witness_InputFromPort :
    let c := State.reset.cfg
    (1 : Byte) = c.portDip1 ∧ ((2 : Byte) ≠ c.portDip1 ∧ 2 = c.portDip2) ∧
    ((3 : Byte) ≠ c.portDip1 ∧ (3 : Byte) ≠ c.portDip2 ∧ 3 = c.portShiftResult) ∧
    ((0 : Byte) ≠ c.portDip1 ∧ (0 : Byte) ≠ c.portDip2 ∧ (0 : Byte) ≠ c.portShiftResult) ∧
    (4 : Byte) ≠ c.portDip1 ∧ (4 : Byte) ≠ c.portDip2 ∧ (4 : Byte) ≠ c.portShiftResult := by decide

/-- The clauses of OutputToPort under the default ports. -/
theorem test_witness_OutputToPort :
    let c := State.reset.cfg
    (4 : Byte) = c.portShiftFill ∧ ((2 : Byte) ≠ c.portShiftFill ∧ 2 = c.portShiftOffset) ∧
    ((3 : Byte) ≠ c.portShiftFill ∧ (3 : Byte) ≠ c.portShiftOffset) := by decide

/-- A port shared by two devices: the first in the rule's order answers (R320). -/
theorem test_shared_port :
    ({ State.reset with dip1 := 0x21, dip2 := 0x83, cfg := { Config.defaults with portDip2 := 1 } }.inputToA 1).a = 0x21 := by
  decide

theorem test_witness_ShiftPeripheralSelectsBits :
    let c := State.reset.cfg
    c.portShiftOffset ≠ c.portShiftFill ∧ c.portShiftResult ≠ c.portDip1 ∧ c.portShiftResult ≠ c.portDip2 := by decide

/-- The zones of ByteWriteActsByZone at their edges: what a write leaves in memory, and its signals. -/
theorem test_witness_ByteWriteActsByZone :
    ((State.reset.memWrite 0x1FFF 0xA5).mem = [] ∧ (State.reset.memWrite 0x1FFF 0xA5).diags = [⟨0x1FFF, 0xA5⟩]) ∧
    (State.reset.memWrite 0x2000 0xA5).mem = [(0x2000, 0xA5)] ∧ (State.reset.memWrite 0x4000 0xA5).mem = [(0x4000, 0xA5)] ∧
    (State.reset.memWrite 0x4001 0xA5).mem = [(0x2001, 0xA5)] ∧ (State.reset.memWrite 0xFFFF 0xA5).mem = [(0x3FFF, 0xA5)] ∧
    (State.reset.memWrite 0xFFFF 0xA5).diags = [] := by decide

/-- The clauses of RedirectTakesLeastMultiple at 0x4000, 0x4001, 0x6000, 0x6001 and 0xFFFF. -/
theorem test_witness_RedirectTakesLeastMultiple :
    redirect 0x4000 = 0x4000 ∧ redirect 0x4001 = 0x2001 ∧ redirect 0x6000 = 0x4000 ∧ redirect 0x6001 = 0x2001 ∧
    redirect 0xFFFF = 0x3FFF := by decide

/-- Both clauses of ReadReturnsLastWrite, at RAM, at a mirror address and at a dropped write. -/
theorem test_witness_ReadReturnsLastWrite : State.reset.mem.wf = true ∧
    storeCell 0x2000 = some (readCell State.reset.cfg 0x2000) ∧
    storeCell 0x4001 = some (readCell State.reset.cfg 0x2001) ∧
    storeCell 0x4001 ≠ some (readCell State.reset.cfg 0x4001) ∧
    storeCell 0x1FFF ≠ some (readCell State.reset.cfg 0x1FFF) := by decide

/-- Both values of READ_REDIRECT, with the lowest and highest mirror address and the lowest RAM address, for the clauses of
ReadReturnsLastWrite that name them. -/
theorem test_witness_ReadReturnsLastWrite_redirect : State.reset.cfg.readRedirect = false ∧
    { State.reset with cfg := { Config.defaults with readRedirect := true } }.cfg.readRedirect = true ∧
    0x4000 < (0x4001 : Addr).toNat ∧ 0x4000 < (0xFFFF : Addr).toNat ∧ 0x2000 ≤ (0x2000 : Addr).toNat := by decide

theorem test_witness_CanonicalMemoryIsUnique :
    Memory.wf [(0, 1), (0xFFFF, 2)] = true ∧ Memory.wf ((Memory.write [] 0xFFFF 2).write 0 1) = true ∧
    ∀ k < 0x10000, Memory.read [(0, 1), (0xFFFF, 2)] k = Memory.read ((Memory.write [] 0xFFFF 2).write 0 1) k :=
  ⟨by decide, by decide, fun _ _ => rfl⟩

/-- What is not canonical: a listed zero, addresses that do not rise, an address past the end. -/
theorem test_memory_wf_refuses :
    Memory.wf [(0, 0)] = false ∧ Memory.wf [(5, 1), (5, 2)] = false ∧ Memory.wf [(0x10000, 1)] = false := by decide

/-- A step from reset, for StepKeepsMemoryCanonical, StepStoresOnlyToRam, StepKeepsHostInputs and
LatchAndSlotSixAreNotRead, with cells at the edge of both protected zones. -/
theorem test_witness_step : State.reset.mem.wf = true ∧
    step State.reset = .next { State.reset with pc := 1, cycles := 4 } ∧
    ((0x1FFF < 0x2000 ∨ 0x4000 < 0x1FFF) ∧ (0x4001 < 0x2000 ∨ 0x4000 < 0x4001)) :=
  ⟨rfl, rfl, by decide⟩

/-- An instruction that writes neither flags nor sp nor memory, and one that keeps CY alone. -/
theorem test_witness_UnlistedInstructions :
    exec .nop State.reset = .next { State.reset with pc := 1, cycles := 4 } ∧ writesSzpAc .nop = false ∧
    writesCy .nop = false ∧ writesSp .nop = false ∧ writesMemory .nop = false ∧ writesSzpAc (.inrR .b) = true ∧
    writesCy (.inrR .b) = false :=
  ⟨rfl, rfl, rfl, rfl, rfl, rfl, rfl⟩

/-- A change of each piece of control state (ControlStateChangesOnlyByName). -/
theorem test_witness_ControlStateChangesOnlyByName :
    exec .ei State.reset = .next { State.reset with inte := true, pc := 1, cycles := 4 } ∧
    exec .di { State.reset with inte := true } = .next { State.reset with pc := 1, cycles := 4 } ∧
    exec .hlt State.reset = .next { State.reset with halted := true, pc := 1, cycles := 7 } ∧
    exec (.out 2) { State.reset with a := 7 } = .next { State.reset with a := 7, offset := 7, pc := 2, cycles := 10 } :=
  ⟨rfl, rfl, rfl, rfl⟩

/-- An instruction that drops both of its writes (AtMostTwoSignals), with its cost (CostsFollowCycleTable). -/
theorem test_witness_AtMostTwoSignals :
    exec (.shld 0x1FFE) State.reset =
      .next { State.reset with pc := 3, cycles := 16, diags := [⟨0x1FFE, 0⟩, ⟨0x1FFF, 0⟩] } := rfl

theorem test_witness_InterruptDispatch : { State.reset with inte := true }.inte = true := by decide

theorem test_witness_RequestWithLatchClearIsLost : State.reset.inte = false := by decide

/-- BatchTotals at N = 1: one step, its cost reaches N, and nothing before it does. -/
theorem test_witness_BatchTotals : 0 < 1 ∧
    StepsThrough State.reset [{ State.reset with pc := 1, cycles := 4 }] ∧ totalCost [] < 1 ∧
    (batch 1 State.reset).state = { State.reset with pc := 1, cycles := 4 } ∧ (batch 1 State.reset).total = 4 :=
  ⟨by decide, ⟨rfl, rfl, trivial⟩, by decide, by decide, by decide⟩

/-- Both ends of BatchTotals and EmptyBatches. -/
theorem test_witness_batches : 0 < 1 ∧ { State.reset with halted := true }.halted = true ∧
    (batch 0 State.reset).total = 0 ∧ (batch 5 State.reset).total = 8 := by decide

theorem test_witness_HaltedWithLatchClearIsFinal :
    { State.reset with halted := true }.halted = true ∧ { State.reset with halted := true }.inte = false := by decide

/-- A launch with four empty banks. -/
def launchZero : Launch where
  cfg := Config.defaults
  romBanks := List.replicate 4 (List.replicate 0x800 0)
  initMem := [0xAA]
  dip1 := 0
  dip2 := 0
  shift := 0
  offset := 0

/-- Both clauses of LaunchLoadsRomAndMemory: four full banks; none; four banks of which one is short. -/
theorem test_witness_LaunchLoadsRomAndMemory :
    (launchZero.romBanks.length = 4 ∧ (∀ bank ∈ launchZero.romBanks, bank.length = 0x800) ∧
      0 < 0xE000 ∧ 0 < launchZero.initMem.length) ∧
    ¬({ launchZero with romBanks := [] }.romBanks.length = 4 ∧
      ∀ bank ∈ { launchZero with romBanks := [] }.romBanks, bank.length = 0x800) ∧
    ¬({ launchZero with romBanks := [[], [], [], []] }.romBanks.length = 4 ∧
      ∀ bank ∈ { launchZero with romBanks := [[], [], [], []] }.romBanks, bank.length = 0x800) := by
  refine ⟨⟨rfl, ?_, by decide, by decide⟩, by simp, by simp⟩
  intro bank h
  rw [List.eq_of_mem_replicate h, List.length_replicate]

end Sys2Proof.Tests
end

section
/-! PROOFS of the statements on the core state (10_state.md): what an instruction can do to the flags, sp, memory and the
control state, each said once; and that the latch and slot 6 are read by nothing. -/

open Sys2Proof Sys2Proof.Machine

namespace Sys2Proof.Machine

/-! ### What an instruction can do to each part of the state -/

@[simp] theorem State.setPair_sp (s : State) (p : Pair) (v : Addr) :
    (s.setPair p v).sp = if p = .sp then v else s.sp := by
  cases p <;> rfl

/-- The instructions by the flags they write (R29): all five, all but CY, CY alone, none. -/
theorem exec_flags_cases {i : Instr} {s t : State} (h : exec i s = .next t) :
    (writesSzpAc i = true ∧ writesCy i = true) ∨
    (writesSzpAc i = true ∧ t.flags.cy = s.flags.cy) ∨
    (writesCy i = true ∧ ∃ cy, t.flags = { s.flags with cy := cy }) ∨
    t.flags = s.flags := by
  cases i with
  | addR | addM | adi | adcR | adcM | aci | subR | subM | sui | sbbR | sbbM | sbi
  | anaR | anaM | ani | xraR | xraM | xri | oraR | oraM | ori | cmpR | cmpM | cpi
  | daa | popPsw => exact .inl ⟨rfl, rfl⟩
  | inrR | inrM | dcrR | dcrM =>
    cases h
    exact .inr (.inl ⟨rfl, rfl⟩)
  | dad | rlc | rrc | ral | rar | stc | cmc =>
    cases h
    exact .inr (.inr (.inl ⟨rfl, _, rfl⟩))
  | jcc | ccc | rcc =>
    cases h
    refine .inr (.inr (.inr ?_))
    split <;> simp
  | _ =>
    cases h
    exact .inr (.inr (.inr (by simp)))

/-- An instruction is one of R26's writers of sp, or leaves it. -/
theorem exec_sp_cases {i : Instr} {s t : State} (h : exec i s = .next t) : writesSp i = true ∨ t.sp = s.sp := by
  cases i with
  | sphl | pushRp | pushPsw | popRp | popPsw | call | callAlt | ccc | ret | retAlt | rcc | rst => exact .inl rfl
  | lxi rp | inx rp | dcx rp =>
    cases rp with
    | sp => exact .inl rfl
    | bc | de | hl => cases h; exact .inr rfl
  | jcc =>
    cases h
    refine .inr ?_
    split <;> simp
  | _ =>
    cases h
    exact .inr (by simp)

/-- An instruction is one of R64's writers of memory, or leaves memory and the signals. -/
theorem exec_memory_cases {i : Instr} {s t : State} (h : exec i s = .next t) :
    writesMemory i = true ∨ (t.mem = s.mem ∧ t.diags = s.diags) := by
  cases i with
  | movMR | mviM | inrM | dcrM | sta | stax | shld | pushRp | pushPsw | call | callAlt | ccc | rst | xthl =>
    exact .inl rfl
  | jcc | rcc =>
    cases h
    refine .inr ?_
    split <;> simp
  | _ =>
    cases h
    exact .inr (by simp)

/-- EI sets the latch, DI clears it, and every other instruction leaves it (R30). -/
theorem exec_inte_cases {i : Instr} {s t : State} (h : exec i s = .next t) :
    (i = .ei ∧ t.inte = true) ∨ (i = .di ∧ t.inte = false) ∨ t.inte = s.inte := by
  cases i with
  | ei => cases h; exact .inl ⟨rfl, rfl⟩
  | di => cases h; exact .inr (.inl ⟨rfl, rfl⟩)
  | jcc | ccc | rcc =>
    cases h
    refine .inr (.inr ?_)
    split <;> simp
  | _ =>
    cases h
    exact .inr (.inr (by simp))

/-- HLT halts, and every other instruction leaves the halted state (R31). -/
theorem exec_halted_cases {i : Instr} {s t : State} (h : exec i s = .next t) :
    (i = .hlt ∧ t.halted = true) ∨ t.halted = s.halted := by
  cases i with
  | hlt => cases h; exact .inl ⟨rfl, rfl⟩
  | jcc | ccc | rcc =>
    cases h
    refine .inr ?_
    split <;> simp
  | _ =>
    cases h
    exact .inr (by simp)

/-- An instruction is an OUT, or leaves the shift device (R320). -/
theorem exec_shift_cases {i : Instr} {s t : State} (h : exec i s = .next t) :
    (∃ p, i = .out p) ∨ (t.shift = s.shift ∧ t.offset = s.offset) := by
  cases i with
  | out p => exact .inl ⟨p, rfl⟩
  | jcc | ccc | rcc =>
    cases h
    refine .inr ?_
    split <;> simp
  | _ =>
    cases h
    exact .inr (by simp)

/-- The flag byte holds all five flags (R28). -/
theorem flagsOfByte_pswByte (f : Flags) : flagsOfByte (pswByte f) = f := by
  obtain ⟨s, z, ac, p, cy⟩ := f
  revert s z ac p cy
  decide

/-! ### The latch and slot 6 are not read

Replacing them commutes with every operation of the model; so an instruction runs alike before and after the replacement. -/

/-- `s` with another latch and slot 6. -/
def State.withLatchAndSlot (s : State) (b : Bool) (v : Byte) : State := { s with inte := b, slot6 := v }

section
variable (s : State) (b : Bool) (v : Byte)

theorem State.setReg_withLatchAndSlot (r : Reg) (x : Byte) :
    (s.withLatchAndSlot b v).setReg r x = (s.setReg r x).withLatchAndSlot b v := by
  cases r <;> rfl

theorem State.setPair_withLatchAndSlot (p : Pair) (x : Addr) :
    (s.withLatchAndSlot b v).setPair p x = (s.setPair p x).withLatchAndSlot b v := by
  cases p <;> rfl

theorem State.memWrite_withLatchAndSlot (x : Addr) (y : Byte) :
    (s.withLatchAndSlot b v).memWrite x y = (s.memWrite x y).withLatchAndSlot b v := by
  unfold State.memWrite
  cases storeCell x <;> rfl

theorem State.writeM_withLatchAndSlot (x : Byte) :
    (s.withLatchAndSlot b v).writeM x = (s.writeM x).withLatchAndSlot b v :=
  s.memWrite_withLatchAndSlot b v s.hl x

theorem State.memWrite16_withLatchAndSlot (x y : Addr) :
    (s.withLatchAndSlot b v).memWrite16 x y = (s.memWrite16 x y).withLatchAndSlot b v := by
  simp only [State.memWrite16, State.memWrite_withLatchAndSlot]

theorem State.push16_withLatchAndSlot (x : Addr) :
    (s.withLatchAndSlot b v).push16 x = (s.push16 x).withLatchAndSlot b v := by
  simp only [State.push16, State.memWrite_withLatchAndSlot]
  rfl

theorem State.dropTop_withLatchAndSlot :
    (s.withLatchAndSlot b v).dropTop = s.dropTop.withLatchAndSlot b v := rfl

theorem State.ite_withLatchAndSlot (c : Prop) [Decidable c] (x y : State) :
    (if c then x else y).withLatchAndSlot b v = if c then x.withLatchAndSlot b v else y.withLatchAndSlot b v :=
  apply_ite (State.withLatchAndSlot · b v) c x y

theorem State.inputToA_withLatchAndSlot (p : Byte) :
    (s.withLatchAndSlot b v).inputToA p = (s.inputToA p).withLatchAndSlot b v := by
  simp only [State.inputToA, State.ite_withLatchAndSlot]
  rfl

theorem State.output_withLatchAndSlot (p x : Byte) :
    (s.withLatchAndSlot b v).output p x = (s.output p x).withLatchAndSlot b v := by
  simp only [State.output, State.ite_withLatchAndSlot]
  rfl

theorem State.aluDaa_withLatchAndSlot :
    (s.withLatchAndSlot b v).aluDaa = s.aluDaa.withLatchAndSlot b v := by
  have hcfg : (s.withLatchAndSlot b v).cfg = s.cfg := rfl
  unfold State.aluDaa
  rw [hcfg]
  cases s.cfg.daaMode <;> rfl

theorem State.fetch_withLatchAndSlot : (s.withLatchAndSlot b v).fetch = s.fetch := by
  rw [fetch_eq, fetch_eq]
  rfl

end

/-- An instruction runs from a state with another latch and slot 6 as it does from the state itself: it leaves the slot, and
the rest of its result is the same but for the latch. -/
theorem exec_withLatchAndSlot {i : Instr} {s t : State} (h : exec i s = .next t) (b : Bool) (v : Byte) :
    ∃ b', exec i (s.withLatchAndSlot b v) = .next (t.withLatchAndSlot b' v) := by
  cases i with
  | ei => cases h; exact ⟨true, rfl⟩
  | di => cases h; exact ⟨false, rfl⟩
  | movRR | movRM | mviR | inrR | dcrR | lxi | inx | dcx | popRp
  | movMR | mviM | inrM | dcrM | sta | stax | shld | xthl | pushRp | pushPsw | call | callAlt | rst
  | jcc | ccc | rcc | daa | inp | out =>
    cases h
    refine ⟨b, congrArg Host.Outcome.next ?_⟩
    simp only [State.setReg_withLatchAndSlot, State.setPair_withLatchAndSlot, State.memWrite_withLatchAndSlot,
      State.writeM_withLatchAndSlot, State.memWrite16_withLatchAndSlot, State.push16_withLatchAndSlot,
      State.dropTop_withLatchAndSlot, State.ite_withLatchAndSlot, State.inputToA_withLatchAndSlot,
      State.output_withLatchAndSlot, State.aluDaa_withLatchAndSlot]
    rfl
  | _ => cases h; exact ⟨b, rfl⟩

/-- The same of a step. -/
theorem step_withLatchAndSlot {s t : State} (h : step s = .next t) (b : Bool) (v : Byte) :
    ∃ b', step (s.withLatchAndSlot b v) = .next (t.withLatchAndSlot b' v) := by
  cases hh : s.halted with
  | true =>
    have hs : step s = .next s := if_pos hh
    cases hs.symm.trans h
    exact ⟨b, if_pos hh⟩
  | false =>
    obtain ⟨i, hi, hs⟩ := step_eq_exec hh
    obtain ⟨j, hj, hs'⟩ := step_eq_exec (s := s.withLatchAndSlot b v) hh
    rw [State.fetch_withLatchAndSlot, hi] at hj
    cases hj
    obtain ⟨b', hb'⟩ := exec_withLatchAndSlot (hs.symm.trans h) b v
    exact ⟨b', hs'.trans hb'⟩

/-! ### The statements -/

/-- Settles O52: replacing the latch and slot 6 commutes with a step. -/
theorem latchAndSlotSixAreNotRead : Obligations.LatchAndSlotSixAreNotRead := by
  intro s t b v h
  obtain ⟨b', hstep⟩ := step_withLatchAndSlot h b v
  exact ⟨t.withLatchAndSlot b' v, hstep, rfl, rfl⟩

/-- Settles O32: the pop returns the word pushed, whose high byte is A and whose low byte holds the five flags. -/
theorem pswRoundTrip : Obligations.PswRoundTrip := by
  intro s a f hi hlo hhi
  have htop := State.top16_push16 hi hlo hhi (joinBytes s.a (pswByte s.flags))
  refine ⟨_, _, rfl, rfl, ?_, ?_, ?_⟩
  · exact (congrArg hiByte htop).trans (hiByte_joinBytes _ _)
  · calc
      _ = flagsOfByte (loByte (joinBytes s.a (pswByte s.flags))) := congrArg (flagsOfByte ∘ loByte) htop
      _ = s.flags := by rw [loByte_joinBytes, flagsOfByte_pswByte]
  · exact BitVec.sub_add_cancel s.sp 2

/-- Settles O47, by the four kinds of instruction R29 tells apart. -/
theorem unlistedInstructionsKeepFlags : Obligations.UnlistedInstructionsKeepFlags := by
  intro i s t h
  rcases exec_flags_cases h with ⟨hszp, hcy⟩ | ⟨hszp, hkeep⟩ | ⟨hcy, _, hkeep⟩ | hkeep
  · simp [hszp, hcy]
  · simp [hszp, hkeep]
  · simp [hcy, hkeep]
  · simp [hkeep]

/-- Settles O48: an instruction that changes sp, memory or the signals is on its list. -/
theorem unlistedInstructionsKeepStackAndMemory : Obligations.UnlistedInstructionsKeepStackAndMemory := by
  intro i s t h
  exact ⟨fun hw => (exec_sp_cases h).resolve_left (by simp [hw]),
    fun hw => (exec_memory_cases h).resolve_left (by simp [hw])⟩

/-- Settles O49, from what an instruction can do to the latch, the halted state and the shift device. -/
theorem controlStateChangesOnlyByName : Obligations.ControlStateChangesOnlyByName := by
  intro i s t h
  refine ⟨fun hne => ?_, fun hne => (exec_halted_cases h).resolve_right hne, fun hne => ?_⟩
  · rcases exec_inte_cases h with hei | hdi | hkeep
    · exact .inl hei
    · exact .inr hdi
    · exact absurd hkeep hne
  · exact (exec_shift_cases h).resolve_right fun ⟨hs, ho⟩ => hne.elim (· hs) (· ho)

/-- Settles O1: each field of State.reset is written out as zero. -/
theorem resetCoreStateIsZero : Obligations.ResetCoreStateIsZero :=
  ⟨fun r => by cases r <;> rfl, rfl, rfl, rfl, rfl, rfl, rfl⟩

end Sys2Proof.Machine
end

section
/-! PROOFS of the statements on memory (20_memory.md): a step changes memory by byte stores in RAM alone; the redirect and
the byte port by zone; canonical lists are determined by what they read; what a launch loads. -/

open Sys2Proof Sys2Proof.Machine

namespace Sys2Proof.Machine

/-! ### A step changes memory by byte stores in RAM alone -/

/-- One byte stored in a cell of RAM, [0x2000, 0x4000] (R53). -/
def RamStore (m n : Memory) : Prop := ∃ k v, 0x2000 ≤ k ∧ k ≤ 0x4000 ∧ n = m.write k v

/-- Any number of bytes stored in RAM one after another. -/
abbrev RamStores : Memory → Memory → Prop := Relation.ReflTransGen RamStore

/-- Stores in RAM keep the canonical form. -/
theorem RamStores.wf {m n : Memory} (h : RamStores m n) (hm : m.wf = true) : n.wf = true := by
  induction h with
  | refl => exact hm
  | tail _ hstore ih =>
    obtain ⟨k, v, _, hk, rfl⟩ := hstore
    exact Memory.write_wf ih v (by omega)

/-- Stores in RAM leave every other cell of a canonical list. -/
theorem RamStores.read_of_not_ram {m n : Memory} (h : RamStores m n) (hm : m.wf = true) {k : Nat}
    (hk : k < 0x2000 ∨ 0x4000 < k) : n.read k = m.read k := by
  induction h with
  | refl => rfl
  | tail hstores hstore ih =>
    obtain ⟨j, v, _, _, rfl⟩ := hstore
    exact (Memory.read_write_other (RamStores.wf hstores hm) v (by omega)).trans ih

/-- A byte write stores at most one byte, in RAM (R53). -/
theorem State.memWrite_ramStores (s : State) (a : Addr) (v : Byte) : RamStores s.mem (s.memWrite a v).mem := by
  rcases s.memWrite_cases a v with ⟨_, h⟩ | ⟨k, hk, h⟩
  · rw [h]
  · obtain ⟨hlo, hhi⟩ := storeCell_range hk
    rw [h]
    exact .single ⟨k, v, hlo, hhi, rfl⟩

/-- A 16-bit write is two byte writes (R60). -/
theorem State.memWrite16_ramStores (s : State) (a v : Addr) : RamStores s.mem (s.memWrite16 a v).mem :=
  (s.memWrite_ramStores a (loByte v)).trans (State.memWrite_ramStores _ (a + 1) (hiByte v))

/-- A push is two byte writes (R61). -/
theorem State.push16_ramStores (s : State) (v : Addr) : RamStores s.mem (s.push16 v).mem :=
  (s.memWrite_ramStores (s.sp - 1) (hiByte v)).trans (State.memWrite_ramStores _ (s.sp - 2) (loByte v))

/-- An instruction stores in RAM alone, whether it writes memory or not (R53, R64). -/
theorem exec_ramStores {i : Instr} {s t : State} (h : exec i s = .next t) : RamStores s.mem t.mem := by
  rcases exec_memory_cases h with hw | ⟨hmem, _⟩
  · cases i with
    | movMR | mviM | inrM | dcrM => cases h; exact s.memWrite_ramStores s.hl _
    | sta | stax => cases h; exact s.memWrite_ramStores _ s.a
    | shld adr => cases h; exact s.memWrite16_ramStores adr s.hl
    | xthl => cases h; exact s.memWrite16_ramStores s.sp s.hl
    | pushRp | pushPsw | call | callAlt | rst => cases h; exact s.push16_ramStores _
    | ccc cc adr =>
      cases h
      split
      · exact s.push16_ramStores (s.pc + 3)
      · exact .refl
    | _ => cases hw
  · rw [hmem]

/-- So does a step; a halted core stores nothing (R100, R108). -/
theorem step_ramStores {s t : State} (h : step s = .next t) : RamStores s.mem t.mem := by
  rcases step_next_cases h with ⟨_, rfl⟩ | ⟨_, i, hexec⟩
  · exact .refl
  · exact exec_ramStores (s := s.beginStep) hexec

/-! ### The redirect and the byte port, by zone -/

/-- A redirect above 0x4000 is the redirect of the address 0x2000 lower (R54). -/
theorem redirect_sub_0x2000 {a : Nat} (h : 0x4000 < a) : redirect (a - 0x2000) = redirect a := by
  unfold redirect
  split <;> split <;> omega

/-- A write in the RAM zone is stored in the addressed cell itself (R53). -/
theorem storeCell_of_ram {a : Addr} (hlo : 0x2000 ≤ a.toNat) (hhi : a.toNat ≤ 0x4000) : storeCell a = some a.toNat := by
  rw [storeCell_eq_some hlo, (redirect_spec _ a.isLt).2.1 hhi]

/-- A write above 0x4000 reaches the cell of the write 0x2000 lower (R53, R54). -/
theorem storeCell_sub_0x2000 {a : Addr} (h : 0x4000 < a.toNat) : storeCell (a - 0x2000) = storeCell a := by
  have hsub : (a - 0x2000).toNat = a.toNat - 0x2000 := by bv_omega
  rw [storeCell_eq_some (a := a) (by omega), storeCell_eq_some (by omega), hsub, redirect_sub_0x2000 h]

/-- A write with no cell to store in only signals (R302). -/
theorem State.memWrite_of_dropped {s : State} {a : Addr} {v : Byte} (h : storeCell a = none) :
    s.memWrite a v = { s with diags := s.diags ++ [{ addr := a, value := v }] } := by
  simp only [State.memWrite, h]

/-- A write with a cell to store in only sets that cell (R53). -/
theorem State.memWrite_of_stored {s : State} {a : Addr} {v : Byte} {k : Nat} (h : storeCell a = some k) :
    s.memWrite a v = { s with mem := s.mem.write k v } := by
  simp only [State.memWrite, h]

theorem readCell_of_false {cfg : Config} (h : cfg.readRedirect = false) (a : Addr) : readCell cfg a = a.toNat := by
  simp [readCell, h]

theorem readCell_of_true {cfg : Config} (h : cfg.readRedirect = true) (a : Addr) :
    readCell cfg a = redirect a.toNat := by
  simp [readCell, h]

/-- A read after a byte write: the byte written if it is stored in the cell read, else what the address read before. -/
theorem State.memRead_memWrite {s : State} (h : s.Inv) (a x : Addr) (v : Byte) :
    (s.memWrite a v).memRead x = if storeCell a = some (readCell s.cfg x) then v else s.memRead x := by
  rw [State.memRead, State.memWrite_cfg, State.read_memWrite h]
  rfl

/-! ### A canonical list is determined by what it reads -/

theorem Memory.read_cons_self (k : Nat) (v : Byte) (m : Memory) : Memory.read ((k, v) :: m) k = v :=
  if_pos rfl

theorem Memory.read_cons_of_ne {k j : Nat} (h : k ≠ j) (v : Byte) (m : Memory) :
    Memory.read ((k, v) :: m) j = m.read j :=
  if_neg h

/-- The first listed cell is the lowest one that differs from an unlisted cell. -/
theorem Memory.head_le {lo k j : Nat} {v : Byte} {m : Memory} (h : Memory.wfFrom lo ((k, v) :: m) = true)
    (hj : Memory.read ((k, v) :: m) j ≠ Memory.unlisted) : k ≤ j := by
  rw [Memory.wfFrom_cons] at h
  by_contra hlt
  exact hj (Memory.read_of_lt ((Memory.wfFrom_cons k k v m).mpr ⟨le_rfl, h.2⟩) (by omega))

/-- Two canonical lists that read alike are equal: their first cells are the same cell, and so on down the list. -/
theorem Memory.eq_of_read_eq {lo : Nat} {m n : Memory} (hm : Memory.wfFrom lo m = true)
    (hn : Memory.wfFrom lo n = true) (hread : ∀ k < 0x10000, m.read k = n.read k) : m = n := by
  induction m generalizing lo n with
  | nil =>
    cases n with
    | nil => rfl
    | cons y n =>
      obtain ⟨_, hk, hv, _⟩ := (Memory.wfFrom_cons ..).mp hn
      exact absurd ((hread _ hk).trans (Memory.read_cons_self ..)).symm hv
  | cons x m ih =>
    obtain ⟨j, v⟩ := x
    obtain ⟨_, hj, hv, hm'⟩ := (Memory.wfFrom_cons ..).mp hm
    cases n with
    | nil => exact absurd ((Memory.read_cons_self ..).symm.trans (hread _ hj)) hv
    | cons y n =>
      obtain ⟨k, w⟩ := y
      obtain ⟨_, hk, hw, hn'⟩ := (Memory.wfFrom_cons ..).mp hn
      have hrj := (Memory.read_cons_self j v m).symm.trans (hread j hj)
      have hrk := (hread k hk).trans (Memory.read_cons_self k w n)
      obtain rfl : k = j := le_antisymm (Memory.head_le hn (hrj ▸ hv)) (Memory.head_le hm (hrk.symm ▸ hw))
      obtain rfl : v = w := hrj.trans (Memory.read_cons_self ..)
      refine congrArg _ (ih hm' hn' fun i hi => ?_)
      by_cases hik : k = i
      · subst hik
        rw [Memory.read_of_lt hm' (by omega), Memory.read_of_lt hn' (by omega)]
      · rw [← Memory.read_cons_of_ne hik v m, ← Memory.read_cons_of_ne hik v n, hread i hi]

/-! ### The launch -/

/-- In a list of blocks of `n` elements each, element `n * k + j` is element `j` of block `k`. -/
theorem getD_flatten {α : Type} {n : Nat} (d : α) {blocks : List (List α)} (h : ∀ b ∈ blocks, b.length = n) :
    ∀ k j, j < n → blocks.flatten.getD (n * k + j) d = (blocks.getD k []).getD j d := by
  induction blocks with
  | nil => intro k j _; simp
  | cons b blocks ih =>
    intro k j hj
    rw [List.forall_mem_cons] at h
    obtain ⟨hb, hblocks⟩ := h
    rw [List.flatten_cons]
    cases k with
    | zero => rw [Nat.mul_zero, Nat.zero_add, List.getD_append _ _ _ _ (hb ▸ hj), List.getD_cons_zero]
    | succ k =>
      rw [List.getD_append_right _ _ _ _ (by rw [hb, Nat.mul_succ]; omega), hb, List.getD_cons_succ,
        show n * (k + 1) + j - n = n * k + j by rw [Nat.mul_succ]; omega]
      exact ih hblocks k j hj

/-- A ROM load of four banks of 0x800 bytes loads them one after another (R57, R331). -/
theorem State.loadRom_of_banks {banks : List (List Byte)} (s : State)
    (h : banks.length = 4 ∧ ∀ bank ∈ banks, bank.length = 0x800) :
    s.loadRom banks = some (s.loadFrom 0 banks.flatten) := by
  refine if_pos ⟨h.1, ?_⟩
  simpa using h.2

/-- Any other ROM load fails (R331). -/
theorem State.loadRom_of_not_banks {banks : List (List Byte)} (s : State)
    (h : ¬(banks.length = 4 ∧ ∀ bank ∈ banks, bank.length = 0x800)) : s.loadRom banks = none := by
  refine if_neg fun hb => h ⟨hb.1, ?_⟩
  simpa using hb.2

theorem length_flatten_banks {banks : List (List Byte)}
    (h : banks.length = 4 ∧ ∀ bank ∈ banks, bank.length = 0x800) : banks.flatten.length = 0x2000 := by
  rw [List.length_flatten, List.eq_replicate_of_mem (l := banks.map List.length) (a := 0x800) (by simpa using h.2)]
  simp [h.1]

/-- The bytes a launch takes from INIT_MEM end at or below the last cell. -/
theorem length_take_initMem (p : Launch) : 0x2000 + (p.initMem.take 0xE000).length ≤ 0x10000 := by
  have := List.length_take_le 0xE000 p.initMem
  omega

/-- The state a launch loads memory into: reset, with the parameters and devices of the launch. -/
def Launch.unloaded (p : Launch) : State :=
  { State.reset with cfg := p.cfg, dip1 := p.dip1, dip2 := p.dip2, shift := p.shift, offset := p.offset }

/-- The same state with INIT_MEM in the cells from 0x2000 on (R341). -/
def Launch.withInitMem (p : Launch) : State := p.unloaded.loadFrom 0x2000 (p.initMem.take 0xE000)

/-- The state with the ROM image loaded over it (R331). -/
def Launch.loaded (p : Launch) : State := p.withInitMem.loadFrom 0 p.romBanks.flatten

/-- A launch loads INIT_MEM and then the ROM. -/
theorem launch_eq_loadRom (p : Launch) : launch p = p.withInitMem.loadRom p.romBanks := rfl

theorem Launch.withInitMem_inv (p : Launch) : p.withInitMem.Inv :=
  State.loadFrom_wf _ (s := p.unloaded) rfl (length_take_initMem p)

theorem Launch.read_withInitMem (p : Launch) {j : Nat} (hj : j < 0xE000) (hlen : j < p.initMem.length) :
    p.withInitMem.mem.read (0x2000 + j) = p.initMem.getD j 0 := by
  have hlt : j < (p.initMem.take 0xE000).length := by simp; omega
  rw [Launch.withInitMem, State.read_loadFrom _ (s := p.unloaded) rfl (length_take_initMem p), if_pos (by omega),
    Nat.add_sub_cancel_left, List.getD_eq_getElem _ _ hlt, List.getElem_take, List.getD_eq_getElem]

/-- A launch loads memory and nothing else. -/
theorem Launch.loaded_frame (p : Launch) : p.loaded = { p.unloaded with mem := p.loaded.mem } :=
  calc p.loaded = { p.withInitMem with mem := p.loaded.mem } := State.loadFrom_frame _ _ _
    _ = { p.unloaded with mem := p.loaded.mem } :=
      congrArg (fun u : State => { u with mem := p.loaded.mem }) (State.loadFrom_frame _ p.unloaded _)

section
variable {p : Launch} (h : p.romBanks.length = 4 ∧ ∀ bank ∈ p.romBanks, bank.length = 0x800)
include h

theorem launch_of_banks : launch p = some p.loaded := p.withInitMem.loadRom_of_banks h

theorem Launch.loaded_inv : p.loaded.Inv :=
  State.loadFrom_wf _ p.withInitMem_inv (by rw [length_flatten_banks h]; decide)

/-- Below 0x2000 a cell holds the byte of the ROM image, above it what it held before the ROM load. -/
theorem Launch.read_loaded (k : Nat) :
    p.loaded.mem.read k = if k < 0x2000 then p.romBanks.flatten.getD k 0 else p.withInitMem.mem.read k := by
  rw [Launch.loaded, State.read_loadFrom _ p.withInitMem_inv (by rw [length_flatten_banks h]; decide),
    length_flatten_banks h]
  simp

theorem Launch.read_loaded_rom {k j : Nat} (hk : k < 4) (hj : j < 0x800) :
    p.loaded.mem.read (0x800 * k + j) = (p.romBanks.getD k []).getD j 0 := by
  rw [Launch.read_loaded h, if_pos (by omega), getD_flatten 0 h.2 k j hj]

theorem Launch.read_loaded_initMem {j : Nat} (hj : j < 0xE000) (hlen : j < p.initMem.length) :
    p.loaded.mem.read (0x2000 + j) = p.initMem.getD j 0 := by
  rw [Launch.read_loaded h, if_neg (by omega), p.read_withInitMem hj hlen]

end

/-! ### Pairs after an instruction -/

/-- Moving pc on leaves every pair (R22, R103). -/
@[simp] theorem State.pair_retire (s : State) (len : Addr) (cost : Nat) (p : Pair) :
    (s.retire len cost).pair p = s.pair p := by
  cases p <;> rfl

/-! ### The statements -/

/-- Settles O44: a step stores in RAM alone, and such stores keep the canonical form. -/
theorem stepKeepsMemoryCanonical : Obligations.StepKeepsMemoryCanonical :=
  fun _ _ hi h => (step_ramStores h).wf hi

/-- Settles O45: a step stores in RAM alone, and the cells of the ROM and mirror zones are no RAM. -/
theorem stepStoresOnlyToRam : Obligations.StepStoresOnlyToRam :=
  fun _ _ hi h _ hk => (step_ramStores h).read_of_not_ram hi hk

/-- Settles O33: the pop returns the word pushed and gives sp back its two. -/
theorem pushThenPopCopiesPair : Obligations.PushThenPopCopiesPair := by
  intro s p q hi hlo hhi
  have htop : ((s.push16 (s.pair (stackPair p))).retire 1 11).top16 = s.pair (stackPair p) :=
    State.top16_push16 hi hlo hhi _
  refine ⟨_, _, rfl, rfl, ?_, ?_⟩
  · rw [State.pair_retire, State.pair_setPair, if_pos rfl, htop]
  · rw [State.retire_sp, State.setPair_sp, if_neg (by cases q <;> simp [stackPair])]
    exact BitVec.sub_add_cancel s.sp 2

/-- Settles O40, by the cell each zone stores to. -/
theorem byteWriteActsByZone : Obligations.ByteWriteActsByZone := by
  intro s a v
  refine ⟨fun hrom => ?_, fun hlo hhi => ?_, fun hmirror => ?_⟩
  · exact State.memWrite_of_dropped (storeCell_eq_none.mpr hrom)
  · exact State.memWrite_of_stored (storeCell_of_ram hlo hhi)
  · have hstore := storeCell_eq_some (a := a) (by omega)
    rw [State.memWrite_of_stored hstore, State.memWrite_of_stored ((storeCell_sub_0x2000 hmirror).trans hstore)]

/-- Settles O41: the redirect divides the distance above 0x4000 by 0x2000, rounding up. -/
theorem redirectTakesLeastMultiple : Obligations.RedirectTakesLeastMultiple := by
  intro a
  obtain ⟨hle, hself, hlt⟩ := redirect_spec a.toNat a.isLt
  refine ⟨hself, fun h => ⟨(a.toNat - 0x4000 + 0x1FFF) / 0x2000, by omega, ?_, hle, hlt h, fun j _ hj => by omega⟩⟩
  exact if_neg (by omega)

/-- Settles O42, by the cell a read returns and the cell a write is stored in. -/
theorem readReturnsLastWrite : Obligations.ReadReturnsLastWrite := by
  refine ⟨fun s x => ⟨fun hr => ?_, fun hr => ?_⟩, fun s a x v hi => ⟨fun hc => ?_, fun hc => ?_, fun hr ha => ⟨?_, ?_⟩,
    fun hr ha => ?_⟩⟩
  · rw [State.memRead, readCell_of_false hr]
  · rw [State.memRead, readCell_of_true hr]
  · rw [State.memRead_memWrite hi, if_pos hc]
  · rw [State.memRead_memWrite hi, if_neg hc]
  · have hle := (redirect_spec a.toNat a.isLt).1
    rw [State.memRead_memWrite hi, readCell_of_false hr, storeCell_eq_some (by omega), if_neg]
    exact fun heq => by injection heq; omega
  · rw [State.read_memWrite hi, if_pos (storeCell_eq_some (by omega))]
  · rw [State.memRead_memWrite hi, readCell_of_true hr, if_pos (storeCell_eq_some ha)]

/-- Settles O43, comparing the two lists from their first cells on. -/
theorem canonicalMemoryIsUnique : Obligations.CanonicalMemoryIsUnique :=
  fun _ _ => Memory.eq_of_read_eq

/-- Settles O59: the ROM load overwrites [0, 0x2000) alone, after INIT_MEM. -/
theorem launchLoadsRomAndMemory : Obligations.LaunchLoadsRomAndMemory := by
  intro p
  refine ⟨fun h => ⟨p.loaded, launch_of_banks h, Launch.loaded_inv h, p.loaded_frame, ?_, ?_⟩, fun h => ?_⟩
  · exact fun k hk j hj => Launch.read_loaded_rom h hk hj
  · exact fun j hj hlen => Launch.read_loaded_initMem h hj hlen
  · exact (launch_eq_loadRom p).trans (p.withInitMem.loadRom_of_not_banks h)

/-- Settles O2: the empty list is canonical. -/
theorem resetMemoryIsCanonical : Obligations.ResetMemoryIsCanonical := rfl

end Sys2Proof.Machine
end

section
/-! PROOFS of the statements on encoding and on what a step and a batch run (30_encoding.md): each row of the opcode map
encodes to the bytes it was read from, column by column; a step runs the decoded instruction; a batch is its steps. -/

open Sys2Proof Sys2Proof.Machine

namespace Sys2Proof.Machine

/-! ### Opcode bytes and their fields (R81) -/

theorem bitVec2_cases (c : BitVec 2) : c = 0 ∨ c = 1 ∨ c = 2 ∨ c = 3 := by
  decide +revert

theorem bitVec3_cases (y : BitVec 3) : y = 0 ∨ y = 1 ∨ y = 2 ∨ y = 3 ∨ y = 4 ∨ y = 5 ∨ y = 6 ∨ y = 7 := by
  decide +revert

/-- The values of a field by its lowest bit, opcode bit 3, which tells the two rows of a pair column apart. -/
theorem bitVec3_even_or_odd (y : BitVec 3) :
    (y = 0 ∨ y = 2 ∨ y = 4 ∨ y = 6) ∨ (y = 1 ∨ y = 3 ∨ y = 5 ∨ y = 7) := by
  decide +revert

/-- A byte is made of its three fields. -/
theorem opFields_fields (op : Byte) : opFields (field76 op) (field53 op) (field20 op) = op := by
  decide +revert

@[simp] theorem field76_opFields (c : BitVec 2) (y x : BitVec 3) : field76 (opFields c y x) = c := by
  decide +revert

@[simp] theorem field53_opFields (c : BitVec 2) (y x : BitVec 3) : field53 (opFields c y x) = y := by
  decide +revert

@[simp] theorem field20_opFields (c : BitVec 2) (y x : BitVec 3) : field20 (opFields c y x) = x := by
  decide +revert

/-- A condition has the code it was decoded from (R87). -/
@[simp] theorem codeOfCond_condOfCode (y : BitVec 3) : codeOfCond (condOfCode y) = y := by
  decide +revert

/-! ### The opcode map, column by column (R81, R89) -/

/-- `i` is well-formed, and its encoding is the opcode byte `op` with as many of the operand bytes `b2` and `b3` as
its length has (R83). -/
def RowEncodes (op b2 b3 : Byte) (i : Instr) : Prop :=
  i.wellFormed = true ∧ encode i = [op, b2, b3].take (opcodeLength op)

section
variable {op b2 b3 : Byte} {i : Instr}

theorem RowEncodes.one (h : i.wellFormed = true ∧ opcodeLength op = 1 ∧ encode i = [op]) : RowEncodes op b2 b3 i := by
  obtain ⟨hwf, hlen, henc⟩ := h
  exact ⟨hwf, by rw [henc, hlen]; rfl⟩

theorem RowEncodes.two (h : i.wellFormed = true ∧ opcodeLength op = 2 ∧ encode i = [op, b2]) :
    RowEncodes op b2 b3 i := by
  obtain ⟨hwf, hlen, henc⟩ := h
  exact ⟨hwf, by rw [henc, hlen]; rfl⟩

/-- A 16-bit operand is both operand bytes, low byte first (R85). -/
theorem RowEncodes.three
    (h : i.wellFormed = true ∧ opcodeLength op = 3 ∧ encode i = encodeF3 op (joinBytes b3 b2)) :
    RowEncodes op b2 b3 i := by
  obtain ⟨hwf, hlen, henc⟩ := h
  exact ⟨hwf, by rw [henc, hlen, encodeF3, loByte_joinBytes, hiByte_joinBytes]; rfl⟩

end

section
variable (b2 b3 : Byte) (y x : BitVec 3)

/-- The class 01. -/
theorem decodeMove_rowEncodes :
    RowEncodes (opFields 1 y x) b2 b3 (decodeMove (regOfCode y) (regOfCode x)) :=
  .one (by decide +revert)

/-- The class 10. -/
theorem decodeAlu_rowEncodes : RowEncodes (opFields 2 y x) b2 b3 (decodeAlu y (regOfCode x)) :=
  .one (by decide +revert)

/-- The column `00yyy001`: LXI and DAD. -/
theorem decodeClass0_lxi_dad_rowEncodes :
    RowEncodes (opFields 0 y 1) b2 b3 (decodeClass0 (opFields 0 y 1) b2 b3) := by
  rcases bitVec3_even_or_odd y with (rfl | rfl | rfl | rfl) | (rfl | rfl | rfl | rfl)
  case _ | _ | _ | _ => exact .three ⟨rfl, rfl, rfl⟩
  case _ | _ | _ | _ => exact .one ⟨rfl, rfl, rfl⟩

/-- The column `00yyy010`: the four forms without an address, then the four with one. -/
theorem decodeDirect_rowEncodes : RowEncodes (opFields 0 y 2) b2 b3 (decodeDirect y (joinBytes b3 b2)) := by
  rcases bitVec3_cases y with rfl | rfl | rfl | rfl | rfl | rfl | rfl | rfl
  case _ | _ | _ | _ => exact .one ⟨rfl, rfl, rfl⟩
  case _ | _ | _ | _ => exact .three ⟨rfl, rfl, rfl⟩

/-- The column `00yyy110`: MVI. -/
theorem decodeClass0_mvi_rowEncodes :
    RowEncodes (opFields 0 y 6) b2 b3 (decodeClass0 (opFields 0 y 6) b2 b3) := by
  rcases bitVec3_cases y with rfl | rfl | rfl | rfl | rfl | rfl | rfl | rfl <;> exact .two ⟨rfl, rfl, rfl⟩

/-- The columns of class 00 without operand bytes are NOP, INX and DCX, INR, DCR and the rotates. -/
theorem decodeClass0_eq_of_noOperand (hx : x = 0 ∨ x = 3 ∨ x = 4 ∨ x = 5 ∨ x = 7) :
    decodeClass0 (opFields 0 y x) b2 b3 = decodeClass0 (opFields 0 y x) 0 0 := by
  rcases hx with rfl | rfl | rfl | rfl | rfl <;> simp [decodeClass0]

theorem decodeClass0_rowEncodes_of_noOperand (hx : x = 0 ∨ x = 3 ∨ x = 4 ∨ x = 5 ∨ x = 7) :
    RowEncodes (opFields 0 y x) b2 b3 (decodeClass0 (opFields 0 y x) b2 b3) := by
  rw [decodeClass0_eq_of_noOperand b2 b3 y x hx]
  rcases hx with rfl | rfl | rfl | rfl | rfl <;> exact .one (by decide +revert)

/-- The class 00. -/
theorem decodeClass0_rowEncodes : RowEncodes (opFields 0 y x) b2 b3 (decodeClass0 (opFields 0 y x) b2 b3) := by
  rcases bitVec3_cases x with rfl | rfl | rfl | rfl | rfl | rfl | rfl | rfl
  · exact decodeClass0_rowEncodes_of_noOperand b2 b3 y _ (by decide)
  · exact decodeClass0_lxi_dad_rowEncodes b2 b3 y
  · simpa [decodeClass0] using decodeDirect_rowEncodes b2 b3 y
  case _ | _ | _ => exact decodeClass0_rowEncodes_of_noOperand b2 b3 y _ (by decide)
  · exact decodeClass0_mvi_rowEncodes b2 b3 y
  · exact decodeClass0_rowEncodes_of_noOperand b2 b3 y _ (by decide)

/-- The column `11yyy011`. -/
theorem decodeMisc_rowEncodes : RowEncodes (opFields 3 y 3) b2 b3 (decodeMisc y b2 (joinBytes b3 b2)) := by
  rcases bitVec3_cases y with rfl | rfl | rfl | rfl | rfl | rfl | rfl | rfl
  case _ | _ => exact .three ⟨rfl, rfl, rfl⟩
  case _ | _ => exact .two ⟨rfl, rfl, rfl⟩
  case _ | _ | _ | _ => exact .one ⟨rfl, rfl, rfl⟩

/-- The column `11yyy101`: PUSH, and CALL with its alternates. -/
theorem decodePush_rowEncodes : RowEncodes (opFields 3 y 5) b2 b3 (decodePush (opFields 3 y 5) (joinBytes b3 b2)) := by
  rcases bitVec3_even_or_odd y with (rfl | rfl | rfl | rfl) | (rfl | rfl | rfl | rfl)
  case _ | _ | _ | _ => exact .one ⟨rfl, rfl, rfl⟩
  case _ | _ | _ | _ => exact .three ⟨rfl, rfl, rfl⟩

/-- The column `11yyy110`. -/
theorem decodeAluImm_rowEncodes : RowEncodes (opFields 3 y 6) b2 b3 (decodeAluImm y b2) := by
  rcases bitVec3_cases y with rfl | rfl | rfl | rfl | rfl | rfl | rfl | rfl <;> exact .two ⟨rfl, rfl, rfl⟩

/-- The columns of class 11 without operand bytes are Rcc, POP with its neighbours, and RST. -/
theorem decodeClass3_eq_of_noOperand (hx : x = 0 ∨ x = 1 ∨ x = 7) :
    decodeClass3 (opFields 3 y x) b2 b3 = decodeClass3 (opFields 3 y x) 0 0 := by
  rcases hx with rfl | rfl | rfl <;> simp [decodeClass3]

theorem decodeClass3_rowEncodes_of_noOperand (hx : x = 0 ∨ x = 1 ∨ x = 7) :
    RowEncodes (opFields 3 y x) b2 b3 (decodeClass3 (opFields 3 y x) b2 b3) := by
  rw [decodeClass3_eq_of_noOperand b2 b3 y x hx]
  rcases hx with rfl | rfl | rfl <;> exact .one (by decide +revert)

/-- The column `11ccc010`. -/
theorem jcc_rowEncodes : RowEncodes (opFields 3 y 2) b2 b3 (.jcc (condOfCode y) (joinBytes b3 b2)) :=
  .three ⟨rfl, by decide +revert, by simp [encode]⟩

/-- The column `11ccc100`. -/
theorem ccc_rowEncodes : RowEncodes (opFields 3 y 4) b2 b3 (.ccc (condOfCode y) (joinBytes b3 b2)) :=
  .three ⟨rfl, by decide +revert, by simp [encode]⟩

/-- The class 11. -/
theorem decodeClass3_rowEncodes : RowEncodes (opFields 3 y x) b2 b3 (decodeClass3 (opFields 3 y x) b2 b3) := by
  rcases bitVec3_cases x with rfl | rfl | rfl | rfl | rfl | rfl | rfl | rfl
  case _ | _ => exact decodeClass3_rowEncodes_of_noOperand b2 b3 y _ (by decide)
  · simpa [decodeClass3] using jcc_rowEncodes b2 b3 y
  · simpa [decodeClass3] using decodeMisc_rowEncodes b2 b3 y
  · simpa [decodeClass3] using ccc_rowEncodes b2 b3 y
  · simpa [decodeClass3] using decodePush_rowEncodes b2 b3 y
  · simpa [decodeClass3] using decodeAluImm_rowEncodes b2 b3 y
  · exact decodeClass3_rowEncodes_of_noOperand b2 b3 y _ (by decide)

end

/-- Every row of the opcode map: what an opcode byte decodes to encodes to the bytes it was read from. -/
theorem decodeOpcode_rowEncodes {op b2 b3 : Byte} {i : Instr} (h : decodeOpcode op b2 b3 = some i) :
    RowEncodes op b2 b3 i := by
  rw [← opFields_fields op] at h ⊢
  generalize field76 op = c, field53 op = y, field20 op = x at h ⊢
  rcases bitVec2_cases c with rfl | rfl | rfl | rfl
  · obtain rfl : decodeClass0 (opFields 0 y x) b2 b3 = i := by simpa [decodeOpcode] using h
    exact decodeClass0_rowEncodes b2 b3 y x
  · obtain rfl : decodeMove (regOfCode y) (regOfCode x) = i := by simpa [decodeOpcode] using h
    exact decodeMove_rowEncodes b2 b3 y x
  · obtain rfl : decodeAlu y (regOfCode x) = i := by simpa [decodeOpcode] using h
    exact decodeAlu_rowEncodes b2 b3 y x
  · obtain rfl : decodeClass3 (opFields 3 y x) b2 b3 = i := by simpa [decodeOpcode] using h
    exact decodeClass3_rowEncodes b2 b3 y x

/-- A row leaves over the bytes it is given to leave over. -/
theorem decodeRow_eq_ok_iff {op b2 b3 : Byte} {tail rest : List Byte} {i : Instr} :
    decodeRow op b2 b3 tail = .ok (i, rest) ↔ decodeOpcode op b2 b3 = some i ∧ tail = rest := by
  unfold decodeRow
  cases decodeOpcode op b2 b3 <;> simp

/-- What decodes is a row of the opcode map read from as many bytes as the opcode's length, and the rest is left over. -/
theorem decode_ok_cases {bs rest : List Byte} {i : Instr} (h : decode bs = .ok (i, rest)) :
    ∃ op b2 b3, decodeOpcode op b2 b3 = some i ∧ bs = [op, b2, b3].take (opcodeLength op) ++ rest := by
  cases bs with
  | nil => cases h
  | cons op tail =>
    rcases opcodeLength_cases op with hlen | hlen | hlen
    · rw [decode_one hlen] at h
      obtain ⟨hrow, rfl⟩ := decodeRow_eq_ok_iff.mp h
      exact ⟨op, 0, 0, hrow, by rw [hlen]; rfl⟩
    · match tail with
      | [] => simp [decode, hlen] at h
      | b2 :: tail =>
        rw [decode_two hlen] at h
        obtain ⟨hrow, rfl⟩ := decodeRow_eq_ok_iff.mp h
        exact ⟨op, b2, 0, hrow, by rw [hlen]; rfl⟩
    · match tail with
      | [] | [_] => simp [decode, hlen] at h
      | b2 :: b3 :: tail =>
        rw [decode_three hlen] at h
        obtain ⟨hrow, rfl⟩ := decodeRow_eq_ok_iff.mp h
        exact ⟨op, b2, b3, hrow, by rw [hlen]; rfl⟩

/-! ### The operand codes (R82, R22, R87) -/

theorem registerCodes : RegisterCodes := ⟨rfl, rfl, rfl, rfl, rfl, rfl, rfl⟩

theorem pairCodes : PairCodes := ⟨rfl, rfl, rfl, rfl⟩

theorem stackPairCodes : StackPairCodes := ⟨rfl, rfl, rfl⟩

theorem conditionCodes : ConditionCodes := ⟨rfl, rfl, rfl, rfl, rfl, rfl, rfl, rfl⟩

/-! ### The length of an opcode (R83) -/

/-- A list of opcode bytes holds an opcode iff their numbers hold its number. -/
theorem mem_iff_toNat_mem {op : Byte} {ops : List Byte} : op ∈ ops ↔ op.toNat ∈ ops.map BitVec.toNat :=
  (List.mem_map_of_injective fun _ _ => BitVec.eq_of_toNat_eq).symm

theorem opcodeLength_of_two {op : Byte} (h : op ∈ twoByteOpcodes) : opcodeLength op = 2 := by
  simp [opcodeLength, h]

theorem opcodeLength_of_three {op : Byte} (h2 : op ∉ twoByteOpcodes) (h3 : op ∈ threeByteOpcodes) :
    opcodeLength op = 3 := by
  simp [opcodeLength, h2, h3]

theorem opcodeLength_of_one {op : Byte} (h2 : op ∉ twoByteOpcodes) (h3 : op ∉ threeByteOpcodes) :
    opcodeLength op = 1 := by
  simp [opcodeLength, h2, h3]

/-- Enough bytes after an opcode byte decode, and those after the instruction are left over (R91). -/
theorem decode_of_three_bytes (op b2 b3 : Byte) (rest : List Byte) :
    ∃ i, decode (op :: b2 :: b3 :: rest) = .ok (i,
      if op ∈ twoByteOpcodes then b3 :: rest
      else if op ∈ threeByteOpcodes then rest
      else b2 :: b3 :: rest) := by
  by_cases h2 : op ∈ twoByteOpcodes
  · obtain ⟨i, _, hrow⟩ := decodeRow_ok op b2 0 (b3 :: rest)
    exact ⟨i, by rw [decode_two (opcodeLength_of_two h2), hrow, if_pos h2]⟩
  · by_cases h3 : op ∈ threeByteOpcodes
    · obtain ⟨i, _, hrow⟩ := decodeRow_ok op b2 b3 rest
      exact ⟨i, by rw [decode_three (opcodeLength_of_three h2 h3), hrow, if_neg h2, if_pos h3]⟩
    · obtain ⟨i, _, hrow⟩ := decodeRow_ok op 0 0 (b2 :: b3 :: rest)
      exact ⟨i, by rw [decode_one (opcodeLength_of_one h2 h3), hrow, if_neg h2, if_neg h3]⟩

/-! ### What a step runs -/

theorem step_of_halted {s : State} (h : s.halted = true) : step s = .next s :=
  if_pos h

/-- The bytes fetched decode to what the three bytes at pc decode to (R86, R100). -/
theorem step_of_decode {s : State} {i : Instr} {rest : List Byte} (hh : s.halted = false)
    (hd : decode [s.memRead s.pc, s.memRead (s.pc + 1), s.memRead (s.pc + 2)] = .ok (i, rest)) :
    step s = exec i s.beginStep := by
  obtain ⟨j, hfetch, _, hthree⟩ := decode_fetch s
  obtain ⟨k, hk, hstep⟩ := step_eq_exec hh
  rw [BitVec.add_assoc s.pc 1 1] at hthree
  cases hfetch.symm.trans hk
  cases hthree.symm.trans hd
  exact hstep

/-! ### What an instruction costs (R106, R350) -/

/-- An instruction reports the cost of its row of the cycle table. -/
theorem exec_cycles {i : Instr} {s t : State} (h : exec i s = .next t) : t.cycles = cycleTable i s.flags := by
  cases i with
  | jcc | ccc | rcc =>
    cases h
    simp only [cycleTable]
    split <;> rfl
  | _ => cases h; rfl

/-- Every row of the cycle table is between 4 and 18. -/
theorem cycleTable_bounds (i : Instr) (f : Flags) : 4 ≤ cycleTable i f ∧ cycleTable i f ≤ 18 := by
  cases i with
  | ccc | rcc =>
    simp only [cycleTable]
    split <;> decide
  | _ => simp [cycleTable]

/-- A core that is not halted takes a step, which costs at least 4 and at most 18 cycles. -/
theorem step_of_not_halted {s : State} (h : s.halted = false) :
    ∃ t, step s = .next t ∧ 4 ≤ t.cycles ∧ t.cycles ≤ 18 := by
  obtain ⟨i, _, hstep⟩ := step_eq_exec h
  obtain ⟨t, ht⟩ := exec_next i s.beginStep
  refine ⟨t, hstep.trans ht, ?_⟩
  rw [exec_cycles ht]
  exact cycleTable_bounds i _

/-! ### Batches (R110, R111) -/

theorem batchLoop_of_le {n fuel total : Nat} (h : n ≤ total) (ds : List RomWriteDropped) (s : State) :
    batchLoop n fuel total ds s = { total, status := .done, diags := ds, state := s } := by
  cases fuel with
  | zero => rfl
  | succ fuel => exact if_neg (by omega)

theorem batchLoop_of_halted {n fuel total : Nat} (hn : total < n) {s : State} (hh : s.halted = true)
    (ds : List RomWriteDropped) :
    batchLoop n (fuel + 1) total ds s = { total, status := .halted, diags := ds, state := s } := by
  simp [batchLoop, hn, hh]

/-- How a batch of `n` ends (R111): with its budget reached, or halted before. -/
def BatchEnds (n : Nat) (r : BatchResult) : Prop :=
  (r.status = .done ∧ n ≤ r.total ∧ r.total < n + 18) ∨ (r.status = .halted ∧ r.total < n ∧ r.state.halted = true)

/-- The loop of a batch of `n`, begun in `s` with a total and signals, gives `r` by running the steps to `ts`. -/
structure BatchRuns (n total : Nat) (ds : List RomWriteDropped) (s : State) (ts : List State) (r : BatchResult) :
    Prop where
  steps : StepsThrough s ts
  short : total + totalCost ts.dropLast < n
  state_eq : r.state = ts.getLastD s
  total_eq : r.total = total + totalCost ts
  diags_eq : r.diags = ds ++ ts.flatMap State.diags
  ends : BatchEnds n r

section
variable {n total : Nat} {ds : List RomWriteDropped} {s t : State}

/-- A loop of a halted core runs no step. -/
theorem BatchRuns.halted (hn : total < n) (hh : s.halted = true) :
    BatchRuns n total ds s [] { total, status := .halted, diags := ds, state := s } where
  steps := trivial
  short := hn
  state_eq := rfl
  total_eq := rfl
  diags_eq := (List.append_nil ds).symm
  ends := .inr ⟨rfl, hn, hh⟩

/-- A loop whose first step reaches the budget runs that step alone. -/
theorem BatchRuns.last (hn : total < n) (hh : s.halted = false) (hs : step s = .next t) (hreach : n ≤ total + t.cycles)
    (hcost : t.cycles ≤ 18) :
    BatchRuns n total ds s [t]
      { total := total + t.cycles, status := .done, diags := ds ++ t.diags, state := t } where
  steps := ⟨hh, hs, trivial⟩
  short := hn
  state_eq := rfl
  total_eq := rfl
  diags_eq := by simp
  ends := .inl ⟨rfl, hreach, by simp only; omega⟩

/-- A loop runs a first step and then what the loop begun after it runs. -/
theorem BatchRuns.cons {ts : List State} {r : BatchResult} (hn : total < n) (hh : s.halted = false)
    (hs : step s = .next t) (h : BatchRuns n (total + t.cycles) (ds ++ t.diags) t ts r) :
    BatchRuns n total ds s (t :: ts) r where
  steps := ⟨hh, hs, h.steps⟩
  short := by
    have hshort := h.short
    cases ts with
    | nil => exact hn
    | cons u us =>
      rw [List.dropLast_cons_cons, totalCost_cons]
      omega
  state_eq := h.state_eq.trans (List.getLastD_cons ..).symm
  total_eq := by rw [h.total_eq, totalCost_cons, Nat.add_assoc]
  diags_eq := by rw [h.diags_eq, List.flatMap_cons, List.append_assoc]
  ends := h.ends

end

/-- With turns enough, the loop runs steps until the budget is reached or the core is halted. -/
theorem batchLoop_runs {n : Nat} (fuel : Nat) : ∀ {total : Nat} (ds : List RomWriteDropped) (s : State), total < n →
    n ≤ total + fuel → ∃ ts, BatchRuns n total ds s ts (batchLoop n fuel total ds s) := by
  induction fuel with
  | zero => intro total ds s hn hfuel; omega
  | succ fuel ih =>
    intro total ds s hn hfuel
    cases hh : s.halted with
    | true => exact ⟨[], batchLoop_of_halted hn hh ds ▸ .halted hn hh⟩
    | false =>
      obtain ⟨t, hs, hlo, hhi⟩ := step_of_not_halted hh
      rw [batchLoop_next hn hh hs]
      by_cases hreach : n ≤ total + t.cycles
      · rw [batchLoop_of_le hreach]
        exact ⟨[t], .last hn hh hs hreach hhi⟩
      · obtain ⟨ts, hts⟩ := ih (ds ++ t.diags) t (total := total + t.cycles) (by omega) (by omega)
        exact ⟨t :: ts, .cons hn hh hs hts⟩

/-! ### The statements -/

/-- Settles O4: a decoded instruction is a row of the opcode map, and every row encodes to the bytes it was read from. -/
theorem encodeOfDecodeIsIdentity : Obligations.EncodeOfDecodeIsIdentity := by
  intro bs rest i h
  obtain ⟨op, b2, b3, hrow, hbs⟩ := decode_ok_cases h
  obtain ⟨hwf, henc⟩ := decodeOpcode_rowEncodes hrow
  exact ⟨hwf, by rw [hbs, henc]⟩

/-- Settles O5: R83's lists of numbers are the model's lists of opcode bytes. -/
theorem everyOpcodeDecodesAtItsLength : Obligations.EveryOpcodeDecodesAtItsLength := by
  intro op b2 b3 rest
  obtain ⟨i, hi⟩ := decode_of_three_bytes op b2 b3 rest
  simp only [mem_iff_toNat_mem] at hi
  exact ⟨i, hi⟩

/-- Settles O9: a halted core waits, and any other runs an instruction, none of which faults. -/
theorem stepAlwaysAnswersNext : Obligations.StepAlwaysAnswersNext := by
  intro s
  cases hh : s.halted with
  | true => exact ⟨s, step_of_halted hh⟩
  | false =>
    obtain ⟨t, hs, _⟩ := step_of_not_halted hh
    exact ⟨t, hs⟩

/-- Settles O56: the loop of the batch from a total of 0, with as many turns as the budget. -/
theorem batchTotals : Obligations.BatchTotals := by
  intro n s hn
  obtain ⟨ts, hts⟩ : ∃ ts, BatchRuns n 0 [] s ts (batch n s) := batchLoop_runs n [] s hn (Nat.zero_add n).ge
  exact ⟨ts, hts.steps, by simpa using hts.short, hts.state_eq, by simpa using hts.total_eq, hts.diags_eq, hts.ends⟩

/-- Settles O6: the codes, and then each word by running the decoder. -/
theorem sampleWordsDecode : Obligations.SampleWordsDecode := by
  refine ⟨registerCodes, pairCodes, stackPairCodes, conditionCodes, ?_⟩
  and_intros <;> rfl

/-- Settles O7: the fetched bytes, the first of the three, decode to the same instruction. -/
theorem stepRunsDecodedInstruction : Obligations.StepRunsDecodedInstruction :=
  fun _ _ _ hh hd => step_of_decode hh hd

/-- Settles O8: a step looks at the halted state first. -/
theorem haltedStepChangesNothing : Obligations.HaltedStepChangesNothing :=
  fun _ h => step_of_halted h

/-- Settles O57: a budget of 0 is reached at once, and a halted core ends the loop in its first turn. -/
theorem emptyBatches : Obligations.EmptyBatches := by
  refine fun s => ⟨batchLoop_of_le le_rfl [] s, fun n hn hh => ?_⟩
  obtain ⟨fuel, rfl⟩ := Nat.exists_eq_succ_of_ne_zero hn.ne'
  exact batchLoop_of_halted hn hh []

end Sys2Proof.Machine
end

section
/-! PROOFS of the statements on the ALU and the flags (40_alu_flags.md): a subtraction undoes the addition of the same
operand and carry, and its borrow is that addition's carry. -/

open Sys2Proof Sys2Proof.Machine

namespace Sys2Proof.Machine

/-! ### What an addition and a subtraction leave in A, in the flags and in the other registers -/

@[simp] theorem State.aluAdd_a (s : State) (b : Byte) (c : Bool) : (s.aluAdd b c).a = (add8 s.a b c).value := rfl

@[simp] theorem State.aluAdd_flags (s : State) (b : Byte) (c : Bool) :
    (s.aluAdd b c).flags = (add8 s.a b c).flags := rfl

@[simp] theorem State.aluSub_a (s : State) (b : Byte) (c : Bool) :
    (s.aluSub b c).a = (sub8 s.a b c (s.subAc b c)).value := rfl

@[simp] theorem State.aluSub_flags (s : State) (b : Byte) (c : Bool) :
    (s.aluSub b c).flags = (sub8 s.a b c (s.subAc b c)).flags := rfl

/-- Moving pc on leaves every register (R10, R103). -/
@[simp] theorem State.reg_retire (s : State) (len : Addr) (cost : Nat) (r : Reg) :
    (s.retire len cost).reg r = s.reg r := by
  cases r <;> rfl

/-- An addition leaves every register but A (R130). -/
theorem State.reg_aluAdd_of_ne_a (s : State) (b : Byte) (c : Bool) {r : Reg} (hr : r ≠ .a) :
    (s.aluAdd b c).reg r = s.reg r := by
  cases r with
  | a => exact absurd rfl hr
  | b | c | d | e | h | l => rfl

/-! ### The symmetry of carry and borrow (R132) -/

/-- The difference takes back the sum, whatever the carry-in. -/
theorem sub8_add8_value (a b : Byte) (c ac : Bool) : (sub8 (add8 a b c).value b c ac).value = a := by
  have := bool_toNat_le_one c
  apply BitVec.eq_of_toNat_eq
  rw [sub8_value, add8_value]
  omega

/-- The truncated sum is below what was added exactly when the sum passed 0xFF. -/
theorem sub8_add8_cy (a b : Byte) (c ac : Bool) :
    (sub8 (add8 a b c).value b c ac).flags.cy = (add8 a b c).flags.cy := by
  have hcarry := (add8_carries a b c).1
  have := bool_toNat_le_one c
  rw [Bool.eq_iff_iff, sub8_cy, add8_value, hcarry]
  omega

/-! ### The statement -/

/-- Settles O20: the SUB sees the operand the ADD saw, for the ADD wrote A alone; the rest is R132. -/
theorem addThenSubtractRestores : Obligations.AddThenSubtractRestores := by
  intro s r hr
  have hkept : (s.aluAdd (s.reg r) false).reg r = s.reg r := s.reg_aluAdd_of_ne_a _ _ hr
  refine ⟨_, _, rfl, rfl, ?_, ?_⟩
  · simp [hkept, sub8_add8_value]
  · simp [hkept, sub8_add8_cy]

end Sys2Proof.Machine
end

section
/-! PROOFS of the statements on data transfer (41_data_transfer.md): the next state of such an instruction is a register, a
pair or bytes of memory written and then pc moved on, and each of the three is said once. -/

open Sys2Proof Sys2Proof.Machine

namespace Sys2Proof.Machine

/-! ### The two bytes of a 16-bit value (R9) -/

theorem hiByte_toNat (v : Addr) : (hiByte v).toNat = v.toNat / 256 := by
  have := v.isLt
  rw [hiByte, BitVec.toNat_ofNat]
  omega

theorem loByte_toNat (v : Addr) : (loByte v).toNat = v.toNat % 256 :=
  BitVec.toNat_ofNat ..

/-! ### Moving pc past an instruction (R103, R106) -/

/-- Whatever `u` was made of `s` without touching pc, its `retire` moves pc on and reports the cost. -/
theorem State.retires_retire {s u : State} (hpc : u.pc = s.pc) (len cost : Nat) :
    Retires s (u.retire (BitVec.ofNat 16 len) cost) len cost := by
  refine ⟨?_, rfl⟩
  rw [State.retire_pc, hpc, BitVec.toNat_add, BitVec.toNat_ofNat, Nat.add_mod_mod]

/-! ### Writing a register, a pair or bytes of memory, and then moving pc on -/

section
variable {i : Instr} {s u : State} {len cost : Nat}

/-- An instruction that writes one register and moves pc on loads that register. -/
theorem loadsRegister_of_exec {dst : Reg} {v : Byte}
    (h : exec i s = .next ((s.setReg dst v).retire (BitVec.ofNat 16 len) cost)) :
    LoadsRegister i s dst v len cost := by
  refine ⟨_, h, ?_, fun r hr => ?_, State.retires_retire (s.setReg_pc dst v) len cost, ?_, SameMemory.of_eq ?_ ?_⟩
  · rw [State.reg_retire, State.reg_setReg, if_pos rfl]
  · rw [State.reg_retire, State.reg_setReg, if_neg hr]
  · cases dst <;> rfl
  · exact s.setReg_mem dst v
  · exact s.setReg_cfg dst v

/-- An instruction that writes one pair and moves pc on loads that pair. -/
theorem loadsPair_of_exec {p : Pair} {w : Addr} {v : Nat}
    (h : exec i s = .next ((s.setPair p w).retire (BitVec.ofNat 16 len) cost)) (hw : w.toNat = v) :
    LoadsPair i s p v len cost := by
  refine ⟨_, h, ?_, fun q hq => ?_, s.setPair_a p w, State.retires_retire (s.setPair_pc p w) len cost, ?_,
    SameMemory.of_eq ?_ ?_⟩
  · rw [State.pair_retire, State.pair_setPair, if_pos rfl, hw]
  · rw [State.pair_retire, State.pair_setPair, if_neg hq]
  · cases p <;> rfl
  · exact s.setPair_mem p w
  · exact s.setPair_cfg p w

/-- An instruction that only presents byte writes to the memory port and moves pc on. -/
theorem storesOnly_of_exec {ws : List (Addr × Byte)} (h : exec i s = .next (u.retire (BitVec.ofNat 16 len) cost))
    (hstores : Stores s u ws) (hframe : u = { s with mem := u.mem, diags := u.diags }) :
    StoresOnly i s ws len cost := by
  obtain ⟨m, d, rfl⟩ : ∃ m d, u = { s with mem := m, diags := d } := ⟨_, _, hframe⟩
  exact ⟨_, h, hstores.congr rfl rfl rfl, State.retires_retire rfl len cost, rfl⟩

/-- An instruction that writes one byte (R53). -/
theorem storesOnly_of_exec_memWrite {a : Addr} {v : Byte}
    (h : exec i s = .next ((s.memWrite a v).retire (BitVec.ofNat 16 len) cost)) :
    StoresOnly i s [(a, v)] len cost :=
  storesOnly_of_exec h (s.memWrite_stores a v) (s.memWrite_frame a v)

/-- An instruction that writes two bytes, low byte first (R60). -/
theorem storesOnly_of_exec_memWrite16 {a v : Addr}
    (h : exec i s = .next ((s.memWrite16 a v).retire (BitVec.ofNat 16 len) cost)) :
    StoresOnly i s [(a, loByte v), (a + 1, hiByte v)] len cost :=
  storesOnly_of_exec h (s.memWrite16_stores a v) (s.memWrite16_frame a v)

end

/-! ### The statements -/

/-- Settles O10: each of the instructions writes one register, with the value read from the state before it. -/
theorem registerMovesAndLoads : Obligations.RegisterMovesAndLoads := by
  refine ⟨registerCodes, fun s => ⟨fun dst src => ⟨?_, loadsRegister_of_exec rfl⟩,
    fun dst => ⟨?_, loadsRegister_of_exec rfl⟩, fun dst v => ⟨?_, loadsRegister_of_exec rfl⟩,
    fun adr => ⟨rfl, loadsRegister_of_exec rfl⟩, ⟨rfl, loadsRegister_of_exec rfl⟩, rfl, loadsRegister_of_exec rfl⟩⟩
  · cases dst <;> cases src <;> rfl
  · cases dst <;> rfl
  · cases dst <;> rfl

/-- Settles O11: each of the instructions is one byte write to the port. -/
theorem byteStores : Obligations.ByteStores := by
  refine fun s => ⟨fun src => ⟨?_, storesOnly_of_exec_memWrite rfl⟩, fun v => ⟨rfl, storesOnly_of_exec_memWrite rfl⟩,
    fun adr => ⟨rfl, storesOnly_of_exec_memWrite rfl⟩, ⟨rfl, storesOnly_of_exec_memWrite rfl⟩,
    rfl, storesOnly_of_exec_memWrite rfl⟩
  cases src <;> rfl

/-- Settles O12: LHLD and SHLD are one 16-bit access of HL, and XCHG writes both pairs with what they held before. -/
theorem hlTransfers : Obligations.HlTransfers := by
  refine fun s => ⟨fun adr => ⟨rfl, _, rfl, ?_, ?_, State.retires_retire rfl 3 16, rfl, SameMemory.of_eq rfl rfl⟩,
    fun adr => ⟨rfl, ?_⟩, rfl, _, rfl, ?_, ?_, ?_, ?_, State.retires_retire rfl 1 4, rfl, SameMemory.of_eq rfl rfl⟩
  · exact loByte_joinBytes (s.memRead (adr + 1)) (s.memRead adr)
  · exact hiByte_joinBytes (s.memRead (adr + 1)) (s.memRead adr)
  · have h : StoresOnly (.shld adr) s [(adr, loByte s.hl), (adr + 1, hiByte s.hl)] 3 16 :=
      storesOnly_of_exec_memWrite16 rfl
    rwa [State.hl, State.pair, loByte_joinBytes, hiByte_joinBytes] at h
  · exact hiByte_joinBytes s.d s.e
  · exact loByte_joinBytes s.d s.e
  · exact hiByte_joinBytes s.h s.l
  · exact loByte_joinBytes s.h s.l

/-- Settles O13: each of the instructions writes one pair, and the bytes of a pair are its registers. -/
theorem pairLoadsAndSteps : Obligations.PairLoadsAndSteps := by
  refine ⟨pairCodes, fun v => ⟨hiByte_toNat v, loByte_toNat v⟩, fun s =>
    ⟨⟨joinBytes_toNat s.b s.c, joinBytes_toNat s.d s.e, joinBytes_toNat s.h s.l, rfl⟩, fun p =>
      ⟨fun v => ⟨?_, loadsPair_of_exec rfl rfl⟩, ?_, loadsPair_of_exec rfl ?_, ?_, loadsPair_of_exec rfl ?_⟩⟩⟩
  · cases p <;> rfl
  · cases p <;> rfl
  · exact BitVec.toNat_add (s.pair p) 1
  · cases p <;> rfl
  · rw [BitVec.toNat_sub, Nat.add_comm]; rfl

end Sys2Proof.Machine
end

section
/-! PROOFS of the statements on arithmetic (42_arithmetic.md): what an addition, a subtraction and a step by one leave in
the state, each said once for the forms on a register, M and an immediate; DAD; and DAA, in the words of R189. -/

open Sys2Proof Sys2Proof.Machine

namespace Sys2Proof.Machine

/-! ### Additions to A (R123) -/

/-- An instruction that adds to A and moves pc on. -/
theorem addsToA_of_exec {i : Instr} {s : State} {b : Byte} {len cost : Nat} (c : Bool)
    (h : exec i s = .next ((s.aluAdd b c).retire (BitVec.ofNat 16 len) cost)) : AddsToA i s b c.toNat len cost := by
  obtain ⟨hcy, hac⟩ := add8_carries s.a b c
  exact ⟨_, h, add8_value s.a b c, hcy, hac, szp_spec _ _ _, State.retires_retire rfl len cost, rfl,
    SameMemory.of_eq rfl rfl⟩

/-! ### Subtractions from A (R124, R125) -/

theorem State.subAc_of_intel {s : State} (h : s.cfg.subAcRule = .intel) (b : Byte) (c : Bool) :
    s.subAc b c = acSubIntel s.a b c := by
  simp [State.subAc, h]

theorem State.subAc_of_free {s : State} (h : s.cfg.subAcRule = .free) (b : Byte) (c : Bool) :
    s.subAc b c = Config.acDraw s.draws := by
  simp [State.subAc, h]

theorem State.subDraws_of_intel {s : State} (h : s.cfg.subAcRule = .intel) : s.subDraws = s.draws := by
  simp [State.subDraws, h]

theorem State.subDraws_of_free {s : State} (h : s.cfg.subAcRule = .free) : s.subDraws = s.draws + 1 := by
  simp [State.subDraws, h]

/-- The flags of a difference, whether it is kept in A or not. -/
theorem State.subResult_differenceFlags (s : State) (b : Byte) (c : Bool) :
    DifferenceFlags s (s.subResult b c).flags (s.subResult b c).value b c.toNat := by
  refine ⟨sub8_cy _ _ _ _, szp_spec _ _ _, fun h => ?_, fun h => State.subAc_of_free h b c⟩
  change s.subAc b c = true ↔ _
  rw [State.subAc_of_intel h, acSubIntel_iff]

/-- The draw of a subtraction. -/
theorem differenceDraws_of_subDraws {s t : State} (h : t.draws = s.subDraws) : DifferenceDraws s t :=
  ⟨fun hi => h.trans (State.subDraws_of_intel hi), fun hf => h.trans (State.subDraws_of_free hf)⟩

/-- An instruction that subtracts from A and moves pc on. -/
theorem subtractsFromA_of_exec {i : Instr} {s : State} {b : Byte} {len cost : Nat} (c : Bool)
    (h : exec i s = .next ((s.aluSub b c).retire (BitVec.ofNat 16 len) cost)) :
    SubtractsFromA i s b c.toNat len cost :=
  ⟨_, h, sub8_value s.a b c (s.subAc b c), s.subResult_differenceFlags b c, differenceDraws_of_subDraws rfl,
    State.retires_retire rfl len cost, rfl, SameMemory.of_eq rfl rfl⟩

/-! ### Steps by one (R127) -/

theorem inc8_value (v : Byte) (cy : Bool) : (inc8 v cy).value.toNat = (v.toNat + 1) % 256 :=
  BitVec.toNat_add v 1

theorem dec8_value (v : Byte) (cy : Bool) : (dec8 v cy).value.toNat = (v.toNat + 255) % 256 := by
  rw [dec8, BitVec.toNat_sub, Nat.add_comm]; rfl

theorem inc8_stepFlags {s t : State} {v : Byte} (h : t.flags = (inc8 v s.flags.cy).flags) :
    StepFlags s t (v + 1) (v.toNat % 16 = 15) := by
  rw [StepFlags, h]
  exact ⟨szp_spec _ _ _, decide_eq_true_iff, rfl⟩

theorem dec8_stepFlags {s t : State} {v : Byte} (h : t.flags = (dec8 v s.flags.cy).flags) :
    StepFlags s t (v - 1) (v.toNat % 16 ≠ 0) := by
  rw [StepFlags, h]
  exact ⟨szp_spec _ _ _, decide_eq_true_iff, rfl⟩

/-- The flags are no register. -/
theorem State.reg_withFlags (s : State) (f : Flags) (r : Reg) : { s with flags := f }.reg r = s.reg r := by
  cases r <;> rfl

/-- `i` puts the value `v` into the register `r`, with the flags of a step by one, and touches nothing else but pc and the
reported cost: the common form of R182 and R184. -/
def StepsRegister (i : Instr) (s : State) (r : Reg) (v : Nat) (ac : Prop) : Prop :=
  ∃ t : State, exec i s = .next t ∧ (t.reg r).toNat = v ∧ (∀ q : Reg, q ≠ r → t.reg q = s.reg q) ∧
    StepFlags s t (t.reg r) ac ∧ Retires s t 1 5 ∧ SameMemory s t ∧
    t = { s with b := t.b, c := t.c, d := t.d, e := t.e, h := t.h, l := t.l, a := t.a, flags := t.flags, pc := t.pc, cycles := t.cycles }

/-- `i` presents the byte `v` at HL, with the flags of a step by one, and touches nothing else but pc and the reported cost:
the common form of R183 and R185. -/
def StepsM (i : Instr) (s : State) (v : Byte) (ac : Prop) : Prop :=
  ∃ t : State, exec i s = .next t ∧ Stores s t [(joinBytes s.h s.l, v)] ∧ StepFlags s t v ac ∧ Retires s t 1 10 ∧
    t = { s with mem := t.mem, diags := t.diags, flags := t.flags, pc := t.pc, cycles := t.cycles }

section
variable {i : Instr} {s : State} {x : AluResult} {ac : Prop}

theorem stepsRegister_of_exec {r : Reg} {v : Nat}
    (h : exec i s = .next ({ s.setReg r x.value with flags := x.flags }.retire 1 5)) (hv : x.value.toNat = v)
    (hflags : ∀ t : State, t.flags = x.flags → StepFlags s t x.value ac) : StepsRegister i s r v ac := by
  have hreg (q : Reg) : ({ s.setReg r x.value with flags := x.flags }.retire 1 5).reg q =
      if q = r then x.value else s.reg q := by
    rw [State.reg_retire, State.reg_withFlags, State.reg_setReg]
  refine ⟨_, h, ?_, fun q hq => ?_, ?_, State.retires_retire (s.setReg_pc r _) 1 5,
    SameMemory.of_eq (s.setReg_mem r _) (s.setReg_cfg r _), ?_⟩
  · rw [hreg, if_pos rfl, hv]
  · rw [hreg, if_neg hq]
  · rw [hreg, if_pos rfl]
    exact hflags _ rfl
  · cases r <;> rfl

theorem stepsM_of_exec (h : exec i s = .next ({ s.writeM x.value with flags := x.flags }.retire 1 10))
    (hflags : ∀ t : State, t.flags = x.flags → StepFlags s t x.value ac) : StepsM i s x.value ac := by
  refine ⟨_, h, (s.memWrite_stores _ _).congr rfl rfl rfl, hflags _ rfl,
    State.retires_retire (s.writeM_pc _) 1 10, ?_⟩
  rw [State.writeM, State.memWrite_frame]
  rfl

end

/-! ### Decimal adjust (R189) -/

/-- R189, two-step: A after the first step. -/
def daaLowStep (a : Byte) (ac : Bool) : Nat :=
  if a.toNat % 16 > 9 ∨ ac = true then (a.toNat + 0x06) % 256 else a.toNat

/-- R189, silicon: what is added to A. -/
def daaCorrection (a : Byte) (ac cy : Bool) : Nat :=
  (if a.toNat % 16 > 9 ∨ ac = true then 0x06 else 0) +
    (if a.toNat / 16 > 9 ∨ cy = true ∨ (a.toNat / 16 ≥ 9 ∧ a.toNat % 16 > 9) then 0x60 else 0)

section
variable (a : Byte) (ac cy : Bool)

theorem daaLowStep_lt : daaLowStep a ac < 256 := by
  have := a.isLt
  unfold daaLowStep
  split <;> omega

theorem daaTwoStep_value : (daaTwoStep a ac cy).value.toNat =
    if daaLowStep a ac / 16 > 9 ∨ cy = true then (daaLowStep a ac + 0x60) % 256 else daaLowStep a ac := by
  have hlt := daaLowStep_lt a ac
  have hmod : (daaTwoStep a ac cy).value.toNat =
      (if daaLowStep a ac / 16 > 9 ∨ cy = true then daaLowStep a ac + 0x60 else daaLowStep a ac) % 256 := by
    simp [daaTwoStep, daaLowStep]
  rw [hmod]
  split <;> omega

theorem daaTwoStep_ac : (daaTwoStep a ac cy).flags.ac = true ↔
    (a.toNat % 16 > 9 ∨ ac = true) ∧ a.toNat % 16 + 6 > 15 := by
  simp [daaTwoStep, szp, lowNibble]

theorem daaTwoStep_cy : (daaTwoStep a ac cy).flags.cy = true ↔
    cy = true ∨ (daaLowStep a ac / 16 > 9 ∨ cy = true) ∧ daaLowStep a ac + 0x60 > 255 := by
  simp [daaTwoStep, szp, daaLowStep]

theorem daaSilicon_value : (daaSilicon a ac cy).value.toNat = (a.toNat + daaCorrection a ac cy) % 256 := by
  simp [daaSilicon, daaCorrection, or_assoc]

theorem daaSilicon_ac : (daaSilicon a ac cy).flags.ac = true ↔ a.toNat % 16 + daaCorrection a ac cy % 16 > 15 := by
  simp [daaSilicon, szp, daaCorrection, or_assoc]

/-- The correction is 0x60 or more exactly when the high nibble is corrected. -/
theorem daaCorrection_ge : 0x60 ≤ daaCorrection a ac cy ↔
    a.toNat / 16 > 9 ∨ cy = true ∨ (a.toNat / 16 ≥ 9 ∧ a.toNat % 16 > 9) := by
  unfold daaCorrection
  split_ifs with _ hhigh hhigh <;> simp [hhigh]

theorem daaSilicon_cy : (daaSilicon a ac cy).flags.cy = true ↔ cy = true ∨ daaCorrection a ac cy ≥ 0x60 := by
  rw [ge_iff_le, daaCorrection_ge]
  simp [daaSilicon, szp, or_assoc]

end

section
variable {a : Byte} {ac cy : Bool}

/-- Results with the same A, AC and CY have the same S, Z and P (R120). -/
theorem AluResult.eq_of_szp {x y : AluResult} (hx : x.flags = szp x.value x.flags.ac x.flags.cy)
    (hy : y.flags = szp y.value y.flags.ac y.flags.cy) (hv : x.value.toNat = y.value.toNat)
    (hac : x.flags.ac = true ↔ y.flags.ac = true) (hcy : x.flags.cy = true ↔ y.flags.cy = true) : x = y := by
  obtain ⟨v, f⟩ := x
  obtain ⟨w, g⟩ := y
  obtain rfl : v = w := BitVec.eq_of_toNat_eq hv
  rw [← Bool.eq_iff_iff] at hac hcy
  rw [hac, hcy, ← hy] at hx
  exact congrArg _ hx

/-- But for A in 0xFA..0xFF with CY = 0, the high nibble is corrected in both algorithms or in neither: the first step of
the two-step one carries into the high nibble exactly when the low nibble is above 9. -/
theorem daa_high_iff (h : ¬(0xFA ≤ a.toNat ∧ cy = false)) :
    (daaLowStep a ac / 16 > 9 ∨ cy = true) ↔
      a.toNat / 16 > 9 ∨ cy = true ∨ (a.toNat / 16 ≥ 9 ∧ a.toNat % 16 > 9) := by
  have := a.isLt
  cases cy with
  | true => simp
  | false =>
    have hlt : a.toNat < 0xFA := by simpa using h
    simp only [Bool.false_eq_true, or_false, false_or]
    unfold daaLowStep
    split <;> omega

theorem daaTwoStep_eq_daaSilicon (h : ¬(0xFA ≤ a.toNat ∧ cy = false)) :
    daaTwoStep a ac cy = daaSilicon a ac cy := by
  have := a.isLt
  have hhigh := daa_high_iff (ac := ac) h
  apply AluResult.eq_of_szp rfl rfl
  · rw [daaTwoStep_value, daaSilicon_value, daaCorrection, if_congr hhigh rfl rfl, daaLowStep]
    split <;> split <;> omega
  · rw [daaTwoStep_ac, daaSilicon_ac, daaCorrection]
    split <;> split <;> omega
  · rw [daaTwoStep_cy, daaSilicon_cy, ge_iff_le, daaCorrection_ge, ← hhigh]
    refine or_congr_right' fun hcy => and_iff_left_of_imp fun hh => ?_
    have := hh.resolve_right hcy
    omega

/-- For A in 0xFA..0xFF with CY = 0, the first step of the two-step algorithm carries out of A, which is lost, so that the
high nibble is corrected in the silicon one alone. -/
theorem daa_results_of_lost_carry (h : 0xFA ≤ a.toNat) :
    (daaTwoStep a ac false).value.toNat = a.toNat + 6 - 0x100 ∧ (daaTwoStep a ac false).flags.cy = false ∧
    (daaSilicon a ac false).value.toNat = a.toNat + 0x66 - 0x100 ∧ (daaSilicon a ac false).flags.cy = true := by
  have := a.isLt
  have hstep : daaLowStep a ac = a.toNat + 6 - 0x100 := by
    rw [daaLowStep, if_pos (.inl (by omega))]
    omega
  have hhigh : ¬(daaLowStep a ac / 16 > 9 ∨ false = true) := not_or_intro (by omega) Bool.false_ne_true
  have hcorr : daaCorrection a ac false = 0x66 := by
    rw [daaCorrection, if_pos (.inl (by omega)), if_pos (.inl (by omega))]
  refine ⟨?_, ?_, ?_, ?_⟩
  · rw [daaTwoStep_value, if_neg hhigh, hstep]
  · rw [← Bool.not_eq_true, daaTwoStep_cy]
    exact not_or_intro Bool.false_ne_true fun hh => hhigh hh.1
  · rw [daaSilicon_value, hcorr]
    omega
  · rw [daaSilicon_cy, hcorr]
    decide

end

/-! ### What DAA does by DAA_MODE (R189) -/

section
variable {s t : State}

theorem State.aluDaa_of_twoStep (h : s.cfg.daaMode = .twoStep) :
    s.aluDaa = s.setA (daaTwoStep s.a s.flags.ac s.flags.cy) := by
  simp [State.aluDaa, h]

theorem State.aluDaa_of_silicon (h : s.cfg.daaMode = .silicon) :
    s.aluDaa = s.setA (daaSilicon s.a s.flags.ac s.flags.cy) := by
  simp [State.aluDaa, h]

/-- Under `either` the draw decides which of the two results it is. -/
theorem State.aluDaa_of_either (h : s.cfg.daaMode = .either) :
    s.aluDaa = { s.setA (daaTwoStep s.a s.flags.ac s.flags.cy) with draws := s.draws + 1 } ∨
    s.aluDaa = { s.setA (daaSilicon s.a s.flags.ac s.flags.cy) with draws := s.draws + 1 } := by
  cases hd : Config.daaDraw s.draws with
  | false => left; simp [State.aluDaa, h, hd]
  | true => right; simp [State.aluDaa, h, hd]

/-- In every mode DAA is one of the two results, and S, Z and P are those of that result. -/
theorem State.aluDaa_signZeroParity (s : State) : SignZeroParity s.aluDaa.flags s.aluDaa.a := by
  cases h : s.cfg.daaMode with
  | twoStep => rw [State.aluDaa_of_twoStep h]; exact szp_spec _ _ _
  | silicon => rw [State.aluDaa_of_silicon h]; exact szp_spec _ _ _
  | either => rcases State.aluDaa_of_either h with h | h <;> rw [h] <;> exact szp_spec _ _ _

/-- DAA changes A, the flags and the number of draws alone. -/
theorem State.aluDaa_frame (s : State) :
    s.aluDaa = { s with a := s.aluDaa.a, flags := s.aluDaa.flags, draws := s.aluDaa.draws } := by
  cases h : s.cfg.daaMode with
  | twoStep => rw [State.aluDaa_of_twoStep h]; rfl
  | silicon => rw [State.aluDaa_of_silicon h]; rfl
  | either => rcases State.aluDaa_of_either h with h | h <;> rw [h] <;> rfl

theorem twoStepAdjusted_of_eq (ha : t.a = (daaTwoStep s.a s.flags.ac s.flags.cy).value)
    (hf : t.flags = (daaTwoStep s.a s.flags.ac s.flags.cy).flags) : TwoStepAdjusted s t := by
  refine ⟨daaLowStep s.a s.flags.ac, fun h => if_pos h, fun h => if_neg h, ?_, fun h => ⟨?_, ?_⟩, fun h => ⟨?_, ?_⟩⟩
  · rw [hf, daaTwoStep_ac]
  · rw [ha, daaTwoStep_value, if_pos h]
  · rw [hf, daaTwoStep_cy, and_iff_right h]
  · rw [ha, daaTwoStep_value, if_neg h]
  · rw [hf, Bool.eq_iff_iff, daaTwoStep_cy]
    exact or_iff_left fun hh => h hh.1

theorem siliconAdjusted_of_eq (ha : t.a = (daaSilicon s.a s.flags.ac s.flags.cy).value)
    (hf : t.flags = (daaSilicon s.a s.flags.ac s.flags.cy).flags) : SiliconAdjusted s t := by
  refine ⟨daaCorrection s.a s.flags.ac s.flags.cy, rfl, ?_, ?_, ?_⟩
  · rw [ha, daaSilicon_value]
  · rw [hf, daaSilicon_ac]
  · rw [hf, daaSilicon_cy]

end

/-! ### The statements -/

/-- Settles O14: all six forms add to A, with carry-in 0 or CY. -/
theorem additionInstructions : Obligations.AdditionInstructions := by
  refine fun s => ⟨fun r => ⟨⟨?_, addsToA_of_exec false rfl⟩, ?_, addsToA_of_exec _ rfl⟩,
    ⟨rfl, addsToA_of_exec false rfl⟩, ⟨rfl, addsToA_of_exec _ rfl⟩,
    fun v => ⟨⟨rfl, addsToA_of_exec false rfl⟩, rfl, addsToA_of_exec _ rfl⟩⟩
  · cases r <;> rfl
  · cases r <;> rfl

/-- Settles O15: all six forms subtract from A, with borrow-in 0 or CY. -/
theorem subtractionInstructions : Obligations.SubtractionInstructions := by
  refine fun s => ⟨fun r => ⟨⟨?_, subtractsFromA_of_exec false rfl⟩, ?_, subtractsFromA_of_exec _ rfl⟩,
    ⟨rfl, subtractsFromA_of_exec false rfl⟩, ⟨rfl, subtractsFromA_of_exec _ rfl⟩,
    fun v => ⟨⟨rfl, subtractsFromA_of_exec false rfl⟩, rfl, subtractsFromA_of_exec _ rfl⟩⟩
  · cases r <;> rfl
  · cases r <;> rfl

/-- Settles O16: the result and its flags are those of `inc8` and `dec8`, put into the register or presented at HL. -/
theorem incrementAndDecrement : Obligations.IncrementAndDecrement := by
  refine fun s => ⟨fun r => ⟨⟨?_, stepsRegister_of_exec rfl (inc8_value _ _) fun _ => inc8_stepFlags⟩, ?_,
      stepsRegister_of_exec rfl (dec8_value _ _) fun _ => dec8_stepFlags⟩,
    ⟨rfl, stepsM_of_exec rfl fun _ => inc8_stepFlags⟩, rfl, stepsM_of_exec rfl fun _ => dec8_stepFlags⟩
  · cases r <;> rfl
  · cases r <;> rfl

/-- Settles O17: the two bytes of the sum are H and L, and the pairs are read before either is written. -/
theorem doubleAdd : Obligations.DoubleAdd := by
  intro s p
  have hhl : s.hl.toNat = 256 * s.h.toNat + s.l.toNat := joinBytes_toNat s.h s.l
  refine ⟨by cases p <;> rfl, _, rfl, ?_, ?_, rfl, State.retires_retire rfl 1 10, SameMemory.of_eq rfl rfl, rfl⟩
  · change 256 * (hiByte (s.hl + s.pair p)).toNat + (loByte (s.hl + s.pair p)).toNat = _
    rw [hiByte_toNat, loByte_toNat, Nat.div_add_mod, BitVec.toNat_add, hhl]
  · change carry16 s.hl (s.pair p) = true ↔ _
    rw [carry16, decide_eq_true_iff, hhl]

/-- Settles O18: in each mode, by the result DAA puts into A and the flags. -/
theorem decimalAdjust : Obligations.DecimalAdjust := by
  refine fun s => ⟨rfl, _, rfl, fun h => ?_, fun h => ?_, fun h => ?_, s.aluDaa_signZeroParity,
    State.retires_retire s.aluDaa_pc 1 4, SameMemory.of_eq s.aluDaa_mem s.aluDaa_cfg, ?_⟩
  · rw [State.aluDaa_of_twoStep h]
    exact ⟨twoStepAdjusted_of_eq rfl rfl, rfl⟩
  · rw [State.aluDaa_of_silicon h]
    exact ⟨siliconAdjusted_of_eq rfl rfl, rfl⟩
  · rcases State.aluDaa_of_either h with h | h <;> rw [h]
    · exact ⟨.inl (twoStepAdjusted_of_eq rfl rfl), rfl⟩
    · exact ⟨.inr (siliconAdjusted_of_eq rfl rfl), rfl⟩
  · rw [State.aluDaa_frame]
    rfl

/-- Settles O19: the algorithms differ exactly where the first step's carry out of A is lost. -/
theorem daaModesDifferOnTwelveInputs : Obligations.DaaModesDifferOnTwelveInputs := by
  refine fun a ac cy => ⟨?_, daaTwoStep_eq_daaSilicon⟩
  rintro ⟨ha, rfl⟩
  exact daa_results_of_lost_carry ha

end Sys2Proof.Machine
end

section
/-! PROOFS of the statements on logical instructions, compares and rotates (43_logical.md): what a logical operation, a
compare and a rotate leave in the state, each said once for all its forms; and repeated rotates, as rotations of A alone
(RLC, RRC) or of the nine bits of CY and A (RAL, RAR). -/

open Sys2Proof Sys2Proof.Machine

namespace Sys2Proof.Machine

/-! ### Logical operations on A (R126) -/

/-- An instruction that writes a result and its flags with CY = 0 to A and moves pc on. -/
theorem logicToA_of_exec {i : Instr} {s : State} {r : Byte} {ac : Bool} {len cost : Nat}
    (h : exec i s = .next ((s.setA ⟨r, szp r ac false⟩).retire (BitVec.ofNat 16 len) cost)) :
    LogicToA i s r ac len cost :=
  ⟨_, h, rfl, rfl, rfl, szp_spec r ac false, State.retires_retire rfl len cost, SameMemory.of_eq rfl rfl, rfl⟩

/-- AC after ANA and ANI, as the disjunction of the operands' bits 3 (D5). -/
theorem and8_eq (a b : Byte) :
    and8 a b = ⟨a &&& b, szp (a &&& b) (a.getLsbD 3 || b.getLsbD 3) false⟩ := by
  rw [and8, BitVec.getLsbD_or]

/-- An instruction that takes A and `b` together bit by bit and moves pc on. -/
theorem logicToA_of_exec_aluAnd {i : Instr} {s : State} {b : Byte} {len cost : Nat}
    (h : exec i s = .next ((s.aluAnd b).retire (BitVec.ofNat 16 len) cost)) :
    LogicToA i s (s.a &&& b) (s.a.getLsbD 3 || b.getLsbD 3) len cost := by
  rw [State.aluAnd, and8_eq] at h
  exact logicToA_of_exec h

/-! ### Compares (R124, R125) -/

/-- The difference without a borrow-in is that of the bytes. -/
theorem State.subResult_value_of_no_borrow (s : State) (b : Byte) : (s.subResult b false).value = s.a - b := by
  apply BitVec.eq_of_toNat_eq
  rw [State.subResult, sub8_value, BitVec.toNat_sub]
  have := b.isLt
  simp only [Bool.toNat_false]
  omega

theorem State.subResult_differenceFlags_of_no_borrow (s : State) (b : Byte) :
    DifferenceFlags s (s.subResult b false).flags (s.a - b) b 0 := by
  rw [← s.subResult_value_of_no_borrow b]
  exact s.subResult_differenceFlags b false

/-- An instruction that compares with A and moves pc on. -/
theorem comparesWithA_of_exec {i : Instr} {s : State} {b : Byte} {len cost : Nat}
    (h : exec i s = .next ((s.aluCmp b).retire (BitVec.ofNat 16 len) cost)) : ComparesWithA i s b len cost := by
  obtain ⟨hcy, ⟨_, hz, _⟩, _⟩ := s.subResult_differenceFlags_of_no_borrow b
  have hdiff : (s.a - b).toNat = 0 ↔ s.a = b := (BitVec.toNat_inj (y := 0)).trans sub_eq_zero
  exact ⟨_, h, s.subResult_differenceFlags_of_no_borrow b, differenceDraws_of_subDraws rfl, hz.trans hdiff, hcy,
    State.retires_retire rfl len cost, SameMemory.of_eq rfl rfl, rfl⟩

/-! ### Rotates (R222 to R225) and the carry instructions -/

/-- The state after a rotate, CMC or STC that leaves `a` in A and `cy` in CY. -/
def State.retireWithACy (s : State) (a : Byte) (cy : Bool) : State := ({ s with a := a }.setCy cy).retire 1 4

@[simp] theorem State.retireWithACy_a (s : State) (a : Byte) (cy : Bool) : (s.retireWithACy a cy).a = a := rfl

@[simp] theorem State.retireWithACy_flags (s : State) (a : Byte) (cy : Bool) :
    (s.retireWithACy a cy).flags = { s.flags with cy := cy } := rfl

theorem rotatesA_of_exec {i : Instr} {op : Byte} {s : State} {Q : State → Prop} {a : Byte} {cy : Bool}
    (henc : encode i = [op]) (h : exec i s = .next (s.retireWithACy a cy)) (hQ : Q (s.retireWithACy a cy)) :
    RotatesA i op s Q :=
  ⟨henc, _, h, hQ, rfl, State.retires_retire rfl 1 4, SameMemory.of_eq rfl rfl, rfl⟩

/-- The state after RLC, A as a rotation of its eight bits. -/
def State.rlc (s : State) : State := s.retireWithACy (s.a.rotateLeft 1) (s.a.getLsbD 7)

/-- The state after RRC. -/
def State.rrc (s : State) : State := s.retireWithACy (s.a.rotateRight 1) (s.a.getLsbD 0)

/-- The state after RAL. -/
def State.ral (s : State) : State :=
  s.retireWithACy (s.a <<< 1 ||| BitVec.ofNat 8 s.flags.cy.toNat) (s.a.getLsbD 7)

/-- The state after RAR. -/
def State.rar (s : State) : State :=
  s.retireWithACy (s.a >>> 1 ||| BitVec.ofNat 8 s.flags.cy.toNat <<< 7) (s.a.getLsbD 0)

theorem exec_rlc (s : State) : exec .rlc s = .next s.rlc := rfl

theorem exec_rrc (s : State) : exec .rrc s = .next s.rrc := rfl

theorem exec_ral (s : State) : exec .ral s = .next s.ral := rfl

theorem exec_rar (s : State) : exec .rar s = .next s.rar := rfl

/-- From `s` to `t` A moves one place left, `b` enters at bit 0, and CY takes the bit that left. -/
def MovesLeft (s t : State) (b : Bool) : Prop :=
  (∀ j < 7, t.a.getLsbD (j + 1) = s.a.getLsbD j) ∧ t.a.getLsbD 0 = b ∧ t.flags.cy = s.a.getLsbD 7

/-- From `s` to `t` A moves one place right, `b` enters at bit 7, and CY takes the bit that left. -/
def MovesRight (s t : State) (b : Bool) : Prop :=
  (∀ j < 7, t.a.getLsbD j = s.a.getLsbD (j + 1)) ∧ t.a.getLsbD 7 = b ∧ t.flags.cy = s.a.getLsbD 0

/-- After an RLC, CY is the bit that entered A. -/
theorem MovesLeft.cy_eq {s t : State} (h : MovesLeft s t (s.a.getLsbD 7)) : t.flags.cy = t.a.getLsbD 0 := by
  obtain ⟨_, hin, hout⟩ := h
  rw [hin, hout]

/-- After an RRC, CY is the bit that entered A. -/
theorem MovesRight.cy_eq {s t : State} (h : MovesRight s t (s.a.getLsbD 0)) : t.flags.cy = t.a.getLsbD 7 := by
  obtain ⟨_, hin, hout⟩ := h
  rw [hin, hout]

theorem State.rlc_movesLeft (s : State) : MovesLeft s s.rlc (s.a.getLsbD 7) := by
  refine ⟨fun j hj => ?_, ?_, rfl⟩
  · have : j + 1 < 8 := by omega
    rw [State.rlc, State.retireWithACy_a, BitVec.getLsbD_rotateLeft]
    simp [this]
  · simp [State.rlc]

theorem State.rrc_movesRight (s : State) : MovesRight s s.rrc (s.a.getLsbD 0) := by
  refine ⟨fun j hj => ?_, ?_, rfl⟩
  · simp [State.rrc, BitVec.getLsbD_rotateRight, hj, Nat.add_comm]
  · simp [State.rrc]

/-- The low bit of CY as a byte. -/
@[simp] theorem getElem_zero_ofNat_toNat (c : Bool) : (BitVec.ofNat 8 c.toNat)[0] = c := by
  cases c <;> rfl

theorem State.ral_movesLeft (s : State) : MovesLeft s s.ral s.flags.cy := by
  refine ⟨fun j hj => ?_, ?_, rfl⟩
  · have : j + 1 < 8 := by omega
    rw [State.ral, State.retireWithACy_a, BitVec.getLsbD_or, BitVec.getLsbD_ofNat, Nat.testBit_bool_toNat,
      BitVec.getLsbD_shiftLeft]
    simp [this]
  · simp [State.ral]

theorem State.rar_movesRight (s : State) : MovesRight s s.rar s.flags.cy := by
  refine ⟨fun j hj => ?_, ?_, rfl⟩
  · simp [State.rar, hj, Nat.add_comm]
  · simp [State.rar]

/-! ### Repeated rotates -/

/-- An instruction run `n` times over, from what it does once. -/
theorem execSeq_replicate {i : Instr} {f : State → State} (h : ∀ s, exec i s = .next (f s)) (n : Nat) (s : State) :
    execSeq (List.replicate n i) s = .next (f^[n] s) := by
  induction n generalizing s with
  | zero => rfl
  | succ n ih =>
    rw [List.replicate_succ, execSeq, h, Function.iterate_succ_apply]
    exact ih (f s)

theorem rotateLeft_one_iterate {w : Nat} (x : BitVec w) (n : Nat) :
    (BitVec.rotateLeft · 1)^[n] x = x.rotateLeft n := by
  induction n with
  | zero => exact BitVec.eq_of_getMsbD_eq fun i hi => by simp [BitVec.getMsbD_rotateLeft, hi, Nat.mod_eq_of_lt]
  | succ n ih =>
    rw [Function.iterate_succ_apply', ih]
    refine BitVec.eq_of_getMsbD_eq fun i hi => ?_
    have hlt : (1 + i) % w < w := Nat.mod_lt _ (by omega)
    simp [BitVec.getMsbD_rotateLeft, hi, hlt, Nat.add_assoc]

/-- A full turn to the left. -/
theorem rotateLeft_one_iterate_width {w : Nat} (x : BitVec w) : (BitVec.rotateLeft · 1)^[w] x = x := by
  rw [rotateLeft_one_iterate, ← BitVec.rotateLeft_mod_eq_rotateLeft, Nat.mod_self]
  exact rotateLeft_one_iterate x 0 |>.symm

theorem rotateRight_rotateLeft_one {w : Nat} (hw : 1 < w) (x : BitVec w) : (x.rotateLeft 1).rotateRight 1 = x := by
  refine BitVec.eq_of_getLsbD_eq fun i hi => ?_
  rw [BitVec.getLsbD_rotateRight_of_lt hw, BitVec.getLsbD_rotateLeft_of_le hw, BitVec.getLsbD_rotateLeft_of_le hw]
  rcases (by omega : i = w - 1 ∨ i < w - 1) with rfl | hlt
  · have : 0 < w := by omega
    simp [this]
  · have : 1 + i < w := by omega
    simp [hlt, this]

/-- A full turn to the right, as the inverse of one to the left. -/
theorem rotateRight_one_iterate_width {w : Nat} (hw : 1 < w) (x : BitVec w) :
    (BitVec.rotateRight · 1)^[w] x = x := by
  have hinv : Function.LeftInverse (BitVec.rotateRight · 1) (BitVec.rotateLeft (w := w) · 1) :=
    rotateRight_rotateLeft_one hw
  simpa only [rotateLeft_one_iterate_width] using hinv.iterate w x

/-- The nine bits that RAL and RAR rotate: CY above A. -/
def State.carryAndA (s : State) : BitVec 9 := BitVec.cons s.flags.cy s.a

theorem MovesLeft.carryAndA_eq {s t : State} (h : MovesLeft s t s.flags.cy) :
    t.carryAndA = s.carryAndA.rotateLeft 1 := by
  obtain ⟨hmid, hin, hout⟩ := h
  refine BitVec.eq_of_getLsbD_eq fun i hi => ?_
  simp only [State.carryAndA, BitVec.getLsbD_rotateLeft, BitVec.getLsbD_cons]
  rcases i with _ | j
  · simpa using hin
  rcases (by omega : j = 7 ∨ j < 7) with rfl | hlt
  · simpa using hout
  · have : j ≠ 8 := by omega
    simp [hmid j hlt, hlt.ne, this, hi]

theorem MovesRight.carryAndA_eq {s t : State} (h : MovesRight s t s.flags.cy) :
    t.carryAndA = s.carryAndA.rotateRight 1 := by
  obtain ⟨hmid, hin, hout⟩ := h
  refine BitVec.eq_of_getLsbD_eq fun i hi => ?_
  simp only [State.carryAndA, BitVec.getLsbD_rotateRight, BitVec.getLsbD_cons]
  rcases (by omega : i = 8 ∨ i = 7 ∨ i < 7) with rfl | rfl | hlt
  · simpa using hout
  · simpa using hin
  · have hlt8 : i < 8 := by omega
    rw [if_neg hlt8.ne, hmid i hlt]
    simp [hlt.ne, hlt8, Nat.add_comm]

section
variable {w : Nat} {view : State → BitVec w} {f : State → State} (s : State)

/-- A full turn of the bits `view` that each `f` rotates to the left. -/
theorem view_iterate_of_rotateLeft (h : ∀ s, view (f s) = (view s).rotateLeft 1) : view (f^[w] s) = view s := by
  have hview : Function.Semiconj view f (BitVec.rotateLeft · 1) := h
  rw [(hview.iterate_right w).eq, rotateLeft_one_iterate_width]

/-- A full turn of the bits `view` that each `f` rotates to the right. -/
theorem view_iterate_of_rotateRight (hw : 1 < w) (h : ∀ s, view (f s) = (view s).rotateRight 1) :
    view (f^[w] s) = view s := by
  have hview : Function.Semiconj view f (BitVec.rotateRight · 1) := h
  rw [(hview.iterate_right w).eq, rotateRight_one_iterate_width hw]

end

/-- After one or more RLCs, CY is the bit that entered A last. -/
theorem State.rlc_iterate_cy (n : Nat) (s : State) :
    (State.rlc^[n + 1] s).flags.cy = (State.rlc^[n + 1] s).a.getLsbD 0 := by
  rw [Function.iterate_succ_apply']
  exact (State.rlc_movesLeft _).cy_eq

/-- After one or more RRCs, CY is the bit that entered A last. -/
theorem State.rrc_iterate_cy (n : Nat) (s : State) :
    (State.rrc^[n + 1] s).flags.cy = (State.rrc^[n + 1] s).a.getLsbD 7 := by
  rw [Function.iterate_succ_apply']
  exact (State.rrc_movesRight _).cy_eq

/-- Instructions that write no flag but CY, run over and over, still write no flag but CY. -/
theorem flags_iterate {f : State → State} (h : ∀ s, (f s).flags = { s.flags with cy := (f s).flags.cy }) (n : Nat)
    (s : State) : (f^[n] s).flags = { s.flags with cy := (f^[n] s).flags.cy } := by
  induction n with
  | zero => rfl
  | succ n ih => rw [Function.iterate_succ_apply', h, ih]

/-- CY and A are as they were when the nine bits are, if no other flag was written. -/
theorem a_eq_and_flags_eq_of_carryAndA {s t : State} (h : t.carryAndA = s.carryAndA)
    (hflags : t.flags = { s.flags with cy := t.flags.cy }) : t.a = s.a ∧ t.flags = s.flags := by
  have hcy : t.flags.cy = s.flags.cy := by simpa [State.carryAndA] using congrArg BitVec.msb h
  refine ⟨by simpa [State.carryAndA] using congrArg (BitVec.setWidth 8) h, ?_⟩
  rw [hflags, hcy]

/-! ### The statements -/

/-- Settles O21: each of the nine forms writes to A one of the three results, with its flags. -/
theorem logicalInstructions : Obligations.LogicalInstructions := by
  refine fun s => ⟨fun r => ⟨⟨?_, logicToA_of_exec_aluAnd rfl⟩, ⟨?_, logicToA_of_exec rfl⟩, ?_,
      logicToA_of_exec rfl⟩,
    ⟨rfl, logicToA_of_exec_aluAnd rfl⟩, ⟨rfl, logicToA_of_exec rfl⟩, ⟨rfl, logicToA_of_exec rfl⟩,
    fun v => ⟨⟨rfl, logicToA_of_exec_aluAnd rfl⟩, ⟨rfl, logicToA_of_exec rfl⟩, rfl, logicToA_of_exec rfl⟩⟩
  · cases r <;> rfl
  · cases r <;> rfl
  · cases r <;> rfl

/-- Settles O22: all three forms write the flags of the difference, which is 0 exactly when the bytes are equal. -/
theorem compareInstructions : Obligations.CompareInstructions := by
  refine fun s => ⟨fun r => ⟨?_, comparesWithA_of_exec rfl⟩, ⟨rfl, comparesWithA_of_exec rfl⟩,
    fun v => ⟨rfl, comparesWithA_of_exec rfl⟩⟩
  cases r <;> rfl

/-- Settles O23: each rotate moves every bit of A by one place and takes in the bit named. -/
theorem rotateInstructions : Obligations.RotateInstructions :=
  fun s => ⟨rotatesA_of_exec rfl (exec_rlc s) s.rlc_movesLeft, rotatesA_of_exec rfl (exec_rrc s) s.rrc_movesRight,
    rotatesA_of_exec rfl (exec_ral s) s.ral_movesLeft, rotatesA_of_exec rfl (exec_rar s) s.rar_movesRight⟩

/-- Settles O24: RLC and RRC rotate the eight bits of A, and CY is the bit that entered last; RAL and RAR rotate the
nine bits of CY and A. -/
theorem repeatedRotatesRestore : Obligations.RepeatedRotatesRestore := by
  refine fun s => ⟨⟨_, execSeq_replicate exec_rlc 8 s, ?_⟩, ⟨_, execSeq_replicate exec_rrc 8 s, ?_⟩,
    ⟨_, execSeq_replicate exec_ral 9 s, ?_⟩, ⟨_, execSeq_replicate exec_rar 9 s, ?_⟩⟩
  · have ha : (State.rlc^[8] s).a = s.a := view_iterate_of_rotateLeft s fun _ => rfl
    exact ⟨ha, by rw [State.rlc_iterate_cy 7 s, ha]⟩
  · have ha : (State.rrc^[8] s).a = s.a := view_iterate_of_rotateRight s (by decide) fun _ => rfl
    exact ⟨ha, by rw [State.rrc_iterate_cy 7 s, ha]⟩
  · have hbits : (State.ral^[9] s).carryAndA = s.carryAndA :=
      view_iterate_of_rotateLeft s fun u => u.ral_movesLeft.carryAndA_eq
    exact a_eq_and_flags_eq_of_carryAndA hbits (flags_iterate (f := State.ral) (fun _ => rfl) 9 s)
  · have hbits : (State.rar^[9] s).carryAndA = s.carryAndA :=
      view_iterate_of_rotateRight s (by decide) fun u => u.rar_movesRight.carryAndA_eq
    exact a_eq_and_flags_eq_of_carryAndA hbits (flags_iterate (f := State.rar) (fun _ => rfl) 9 s)

/-- Settles O25: CMA is the complement of every bit; CMC and STC write CY as a rotate does, and A with what it holds. -/
theorem complementsAndSetCarry : Obligations.ComplementsAndSetCarry := by
  refine fun s => ⟨⟨rfl, _, rfl, ?_, State.retires_retire rfl 1 4, SameMemory.of_eq rfl rfl, rfl⟩,
    rotatesA_of_exec (a := s.a) (cy := !s.flags.cy) rfl rfl ⟨rfl, rfl⟩,
    rotatesA_of_exec (a := s.a) (cy := true) rfl rfl ⟨rfl, rfl⟩⟩
  change (s.a ^^^ 0xFF).toNat = 255 - s.a.toNat
  have hnot : s.a ^^^ 0xFF = ~~~s.a := BitVec.xor_allOnes
  rw [hnot, BitVec.toNat_not]

end Sys2Proof.Machine
end

section
/-! PROOFS of the statements on branches (44_branch.md): a push followed by a jump, said once for CALL, Ccc and RST; and
what a conditional instruction is when its condition holds and when it does not. -/

open Sys2Proof Sys2Proof.Machine

namespace Sys2Proof.Machine

/-! ### Pushing a word and jumping (R61) -/

/-- An instruction that pushes a word and jumps changes nothing besides. -/
theorem pushesAndGoesTo_of_exec {i : Instr} {s : State} {ret target : Addr} {cost : Nat}
    (h : exec i s = .next ((s.push16 ret).jump target cost)) : PushesAndGoesTo i s ret target cost := by
  have hframe := congrArg (State.jump · target cost) (s.push16_frame ret)
  exact ⟨_, h, (s.push16_stores ret).congr rfl rfl rfl, rfl, rfl, rfl, hframe⟩

/-! ### The conditional instructions (R241, R243, R245) -/

section
variable {s : State} {cc : Cond}

/-- Jcc taken is JMP. -/
theorem exec_jcc_of_holds (h : condHolds s.flags cc = true) (adr : Addr) :
    exec (.jcc cc adr) s = exec (.jmp adr) s :=
  congrArg Host.Outcome.next (if_pos h)

theorem exec_jcc_of_not_holds (h : condHolds s.flags cc = false) (adr : Addr) :
    exec (.jcc cc adr) s = .next (s.retire 3 10) :=
  congrArg Host.Outcome.next (if_neg (Bool.eq_false_iff.mp h))

/-- Ccc taken is CALL. -/
theorem exec_ccc_of_holds (h : condHolds s.flags cc = true) (adr : Addr) :
    exec (.ccc cc adr) s = exec (.call adr) s :=
  congrArg Host.Outcome.next (if_pos h)

theorem exec_ccc_of_not_holds (h : condHolds s.flags cc = false) (adr : Addr) :
    exec (.ccc cc adr) s = .next (s.retire 3 11) :=
  congrArg Host.Outcome.next (if_neg (Bool.eq_false_iff.mp h))

/-- Rcc taken is RET but for its cost. -/
theorem exec_rcc_of_holds (h : condHolds s.flags cc = true) :
    exec (.rcc cc) s = .next (s.dropTop.jump s.top16 11) :=
  congrArg Host.Outcome.next (if_pos h)

theorem exec_rcc_of_not_holds (h : condHolds s.flags cc = false) :
    exec (.rcc cc) s = .next (s.retire 1 5) :=
  congrArg Host.Outcome.next (if_neg (Bool.eq_false_iff.mp h))

end

/-! ### The statements -/

/-- Settles O27: CALL, a taken Ccc and RST are each one push and a jump. -/
theorem callInstructions : Obligations.CallInstructions := by
  refine fun s => ⟨fun adr => ⟨rfl, pushesAndGoesTo_of_exec rfl⟩, fun cc adr => ⟨?_, fun h => ?_, fun h => ?_⟩,
    fun n => ⟨?_, pushesAndGoesTo_of_exec rfl⟩⟩
  · cases cc <;> rfl
  · exact pushesAndGoesTo_of_exec (exec_ccc_of_holds h adr)
  · exact exec_ccc_of_not_holds h adr
  · rcases bitVec3_cases n with rfl | rfl | rfl | rfl | rfl | rfl | rfl | rfl <;> rfl

/-- Settles O26: Jcc is JMP when its condition holds, and else moves past itself. -/
theorem jumpInstructions : Obligations.JumpInstructions := by
  refine ⟨conditionCodes, fun s => ⟨⟨rfl, rfl, rfl, rfl, rfl, rfl, rfl, rfl⟩, fun adr => ⟨rfl, rfl⟩,
    fun cc adr => ⟨?_, ?_⟩, rfl, rfl⟩⟩
  · cases cc <;> rfl
  · cases h : condHolds s.flags cc with
    | true => exact exec_jcc_of_holds h adr
    | false => exact exec_jcc_of_not_holds h adr

/-- Settles O28: RET and a taken Rcc pop into pc, with a cost of their own each. -/
theorem returnInstructions : Obligations.ReturnInstructions := by
  refine fun s => ⟨⟨rfl, rfl⟩, fun cc => ⟨?_, exec_rcc_of_holds, exec_rcc_of_not_holds⟩⟩
  cases cc <;> rfl

end Sys2Proof.Machine
end

section
/-! PROOFS of the statements on the stack, I/O and machine control (45_stack_io_control.md): a push followed by the next
instruction; which registers a pop and an exchange write; and what each port answers to IN and OUT. -/

open Sys2Proof Sys2Proof.Machine

namespace Sys2Proof.Machine

/-! ### Pushes and pops (R260 to R263) -/

/-- An instruction that pushes a word and moves pc on jumps to the instruction after it. -/
theorem pushesAndGoesTo_of_exec_retire {i : Instr} {s : State} {v len : Addr} {cost : Nat}
    (h : exec i s = .next ((s.push16 v).retire len cost)) : PushesAndGoesTo i s v (s.pc + len) cost := by
  rw [State.retire, State.push16_pc] at h
  exact pushesAndGoesTo_of_exec h

/-- The pairs of PUSH and POP are three different pairs (R22). -/
theorem stackPair_injective : Function.Injective stackPair := by
  intro p q
  cases p <;> cases q <;> simp [stackPair]

/-- Neither PUSH nor POP names sp as its pair; code 3 is PSW there (R22). -/
theorem stackPair_ne_sp (p : StackPair) : stackPair p ≠ .sp := by
  cases p <;> decide

@[simp] theorem State.pair_dropTop_stackPair (s : State) (p : StackPair) :
    s.dropTop.pair (stackPair p) = s.pair (stackPair p) := by
  cases p <;> rfl

/-- The three bits of the flag byte that hold no flag (R28); `flagsOfByte_pswByte` says where the flags are. -/
theorem pswByte_fixed_bits (f : Flags) :
    (pswByte f).getLsbD 5 = false ∧ (pswByte f).getLsbD 3 = false ∧ (pswByte f).getLsbD 1 = true := by
  obtain ⟨s, z, ac, p, cy⟩ := f
  revert s z ac p cy
  decide

theorem State.loByte_top16 (s : State) : loByte s.top16 = s.memRead s.sp :=
  loByte_joinBytes _ _

theorem State.hiByte_top16 (s : State) : hiByte s.top16 = s.memRead (s.sp + 1) :=
  hiByte_joinBytes _ _

/-! ### What each port answers to IN (R320, R323, R325) -/

section
variable {s : State} {p : Byte}

theorem State.inputToA_of_dip1 (h : p = s.cfg.portDip1) : s.inputToA p = { s with a := s.dip1 } :=
  if_pos h

theorem State.inputToA_of_dip2 (h1 : p ≠ s.cfg.portDip1) (h : p = s.cfg.portDip2) :
    s.inputToA p = { s with a := s.dip2 } :=
  (if_neg h1).trans (if_pos h)

theorem State.inputToA_of_shiftResult (h1 : p ≠ s.cfg.portDip1) (h2 : p ≠ s.cfg.portDip2)
    (h : p = s.cfg.portShiftResult) : s.inputToA p = { s with a := shiftResult s.shift s.offset } :=
  (if_neg h1).trans ((if_neg h2).trans (if_pos h))

theorem State.inputToA_of_unmapped (h1 : p ≠ s.cfg.portDip1) (h2 : p ≠ s.cfg.portDip2)
    (h3 : p ≠ s.cfg.portShiftResult) :
    s.inputToA p = { s with a := Config.ioDraw s.draws, draws := s.draws + 1 } :=
  (if_neg h1).trans ((if_neg h2).trans (if_neg h3))

/-- A port that some device has costs no draw. -/
theorem State.inputToA_draws_of_mapped
    (h : p = s.cfg.portDip1 ∨ p = s.cfg.portDip2 ∨ p = s.cfg.portShiftResult) : (s.inputToA p).draws = s.draws := by
  rcases s.inputToA_cases p with ⟨_, hin⟩ | ⟨_, _, hin⟩ | ⟨_, _, _, hin⟩ | ⟨h1, h2, h3, _⟩
  · rw [hin]
  · rw [hin]
  · rw [hin]
  · exact absurd h (not_or.mpr ⟨h1, not_or.mpr ⟨h2, h3⟩⟩)

/-- An IN changes A and the count of draws alone. -/
theorem State.inputToA_frame (s : State) (p : Byte) :
    s.inputToA p = { s with a := (s.inputToA p).a, draws := (s.inputToA p).draws } := by
  rcases s.inputToA_cases p with ⟨_, hin⟩ | ⟨_, _, hin⟩ | ⟨_, _, _, hin⟩ | ⟨_, _, _, hin⟩ <;> rw [hin]

/-! ### What each port does on OUT (R320, R322, R323, R325) -/

variable {v : Byte}

theorem State.output_of_shiftFill (h : p = s.cfg.portShiftFill) :
    s.output p v = { s with shift := joinBytes (loByte s.shift) v } :=
  if_pos h

theorem State.output_of_shiftOffset (h1 : p ≠ s.cfg.portShiftFill) (h : p = s.cfg.portShiftOffset) :
    s.output p v = { s with offset := v.extractLsb' 0 3 } :=
  (if_neg h1).trans (if_pos h)

theorem State.output_of_unmapped (h1 : p ≠ s.cfg.portShiftFill) (h2 : p ≠ s.cfg.portShiftOffset) :
    s.output p v = s :=
  (if_neg h1).trans (if_neg h2)

/-- An OUT changes the shift device alone. -/
theorem State.output_frame (s : State) (p v : Byte) :
    s.output p v = { s with shift := (s.output p v).shift, offset := (s.output p v).offset } := by
  rcases s.output_cases p v with ⟨_, hout⟩ | ⟨_, _, hout⟩ | ⟨_, _, hout⟩ <;> rw [hout]

/-- A fill moves the old low byte up (R322). -/
theorem joinBytes_loByte_toNat (x : Addr) (v : Byte) :
    (joinBytes (loByte x) v).toNat = x.toNat % 256 * 256 + v.toNat := by
  rw [joinBytes_toNat, loByte_toNat, Nat.mul_comm]

end

/-! ### The statements -/

/-- Settles O30: PUSH is one push of the pair, and POP writes that pair and sp. -/
theorem pushAndPopPairs : Obligations.PushAndPopPairs := by
  refine ⟨stackPairCodes, fun s p => ⟨⟨?_, pushesAndGoesTo_of_exec_retire rfl⟩, ?_, _, rfl, ?_, fun q hq => ?_, ?_,
    State.retires_retire (State.setPair_pc _ _ _) 1 10,
    SameMemory.of_eq (State.setPair_mem _ _ _) (State.setPair_cfg _ _ _), ?_⟩⟩
  · cases p <;> rfl
  · cases p <;> rfl
  · rw [State.pair_retire, State.pair_setPair, if_pos rfl]; rfl
  · rw [State.pair_retire, State.pair_setPair, if_neg (stackPair_injective.ne hq), State.pair_dropTop_stackPair]
  · rw [State.retire_sp, State.setPair_sp, if_neg (stackPair_ne_sp p), State.dropTop_sp]
  · cases p <;> rfl

/-- Settles O31: the byte pushed below A is the flag byte, and the pop splits the word at sp into the two. -/
theorem pushAndPopPsw : Obligations.PushAndPopPsw := by
  intro s
  have hflags := flagsOfByte_pswByte s.flags
  obtain ⟨h5, h3, h1⟩ := pswByte_fixed_bits s.flags
  have hpop : flagsOfByte (loByte s.top16) = flagsOfByte (s.memRead s.sp) := congrArg flagsOfByte s.loByte_top16
  refine ⟨rfl, rfl, ⟨pswByte s.flags, pushesAndGoesTo_of_exec_retire rfl, congrArg Flags.s hflags,
    congrArg Flags.z hflags, h5, congrArg Flags.ac hflags, h3, congrArg Flags.p hflags, h1, congrArg Flags.cy hflags⟩,
    _, rfl, s.hiByte_top16, congrArg Flags.s hpop, congrArg Flags.z hpop, congrArg Flags.ac hpop,
    congrArg Flags.p hpop, congrArg Flags.cy hpop, rfl, State.retires_retire rfl 1 10, SameMemory.of_eq rfl rfl, rfl⟩

/-- Settles O34: XTHL writes HL at sp and takes the word that stood there before; SPHL writes sp alone. -/
theorem exchangeAndLoadStackPointer : Obligations.ExchangeAndLoadStackPointer := by
  intro s
  have hpc : ((s.memWrite16 s.sp s.hl).setPair .hl s.top16).pc = s.pc := by simp
  have hstores := s.memWrite16_stores s.sp s.hl
  rw [State.hl, State.pair, loByte_joinBytes, hiByte_joinBytes] at hstores
  have hframe := congrArg (fun u => (State.setPair u .hl s.top16).retire 1 18) (s.memWrite16_frame s.sp s.hl)
  refine ⟨⟨rfl, _, rfl, s.loByte_top16, s.hiByte_top16, hstores.congr rfl rfl rfl, State.retires_retire hpc 1 18, ?_⟩,
    rfl, _, rfl, rfl, State.retires_retire rfl 1 5, SameMemory.of_eq rfl rfl, rfl⟩
  rw [State.retire_pc, hpc]
  exact hframe

/-- Settles O35, a clause for each device and one for a port that none has. -/
theorem inputFromPort : Obligations.InputFromPort := by
  refine fun s p => ⟨rfl, _, rfl, fun h => ?_, fun h1 h => ?_, fun h1 h2 h j hj => ?_, fun h1 h2 h3 => ?_,
    State.inputToA_draws_of_mapped, State.retires_retire (s.inputToA_pc p) 2 10,
    SameMemory.of_eq (s.inputToA_mem p) (s.inputToA_cfg p), ?_⟩
  · rw [State.retire_a, State.inputToA_of_dip1 h]
  · rw [State.retire_a, State.inputToA_of_dip2 h1 h]
  · rw [State.retire_a, State.inputToA_of_shiftResult h1 h2 h]
    exact shiftResult_getLsbD s.shift s.offset j hj
  · rw [State.retire_a, State.retire_draws, State.inputToA_of_unmapped h1 h2 h3]
    exact ⟨rfl, rfl⟩
  · rw [State.retire_pc, State.inputToA_pc]
    exact congrArg (State.retire · 2 10) (s.inputToA_frame p)

/-- Settles O36, a clause for the fill, one for the offset and one for every other port. -/
theorem outputToPort : Obligations.OutputToPort := by
  refine fun s p => ⟨rfl, _, rfl, fun h => ?_, fun h1 h => ?_, fun h1 h2 => ?_,
    State.retires_retire (s.output_pc p s.a) 2 10, SameMemory.of_eq (s.output_mem p s.a) (s.output_cfg p s.a), ?_⟩
  · rw [State.retire_shift, State.retire_offset, State.output_of_shiftFill h]
    exact ⟨joinBytes_loByte_toNat s.shift s.a, rfl⟩
  · rw [State.retire_shift, State.retire_offset, State.output_of_shiftOffset h1 h]
    exact ⟨BitVec.extractLsb'_toNat 0 3 s.a, rfl⟩
  · rw [State.retire_shift, State.retire_offset, State.output_of_unmapped h1 h2]
    exact ⟨rfl, rfl⟩
  · rw [State.retire_pc, State.output_pc]
    exact congrArg (State.retire · 2 10) (s.output_frame p s.a)

/-- Settles O38: each of the four is one field written, or none, and pc moved on. -/
theorem machineControl : Obligations.MachineControl :=
  ⟨rfl, rfl, rfl, rfl, fun _ => ⟨rfl, rfl, rfl, rfl⟩⟩

end Sys2Proof.Machine
end

section
/-! PROOFS of the statements on the alternate opcodes (46_alternate_opcodes.md): the opcode bytes of NOP's and CALL's
alternates as numbers; and that each alternate is the instruction it duplicates, whatever its field holds. -/

open Sys2Proof Sys2Proof.Machine

namespace Sys2Proof.Machine

/-! ### The alternates' opcode bytes (R290, R293) -/

theorem opFields_nopAlt (n : BitVec 3) : opFields 0 n 0 = BitVec.ofNat 8 (8 * n.toNat) := by
  decide +revert

theorem opPair_callAlt (p : BitVec 2) : opPair 0b11 p 0b1101 = BitVec.ofNat 8 (0xCD + 16 * p.toNat) := by
  decide +revert

theorem encode_nopAlt (n : BitVec 3) : encode (.nopAlt n) = [BitVec.ofNat 8 (8 * n.toNat)] :=
  congrArg (fun op => [op]) (opFields_nopAlt n)

theorem encode_callAlt (p : BitVec 2) (adr : Addr) :
    encode (.callAlt p adr) = [BitVec.ofNat 8 (0xCD + 16 * p.toNat), loByte adr, hiByte adr] :=
  congrArg (encodeF3 · adr) (opPair_callAlt p)

/-! ### Each alternate is the instruction it duplicates (R290 to R293) -/

theorem exec_nopAlt (n : BitVec 3) (s : State) : exec (.nopAlt n) s = exec .nop s := rfl

theorem exec_jmpAlt (adr : Addr) (s : State) : exec (.jmpAlt adr) s = exec (.jmp adr) s := rfl

theorem exec_retAlt (s : State) : exec .retAlt s = exec .ret s := rfl

theorem exec_callAlt (p : BitVec 2) (adr : Addr) (s : State) : exec (.callAlt p adr) s = exec (.call adr) s := rfl

/-! ### The statement -/

/-- Settles O39: each alternate has the original's next state, which the statements on the originals give. -/
theorem alternatesBehaveAsOriginals : Obligations.AlternatesBehaveAsOriginals := by
  intro s
  obtain ⟨-, -, -, -, hcontrol⟩ := machineControl
  obtain ⟨-, -, -, hnop⟩ := hcontrol s
  obtain ⟨-, hjumps⟩ := jumpInstructions
  obtain ⟨-, hjmp, -⟩ := hjumps s
  obtain ⟨⟨-, hret⟩, -⟩ := returnInstructions s
  refine ⟨fun n => ⟨encode_nopAlt n, ?_, exec_nopAlt n s⟩, fun adr => ⟨rfl, ?_, exec_jmpAlt adr s⟩,
    ⟨rfl, ?_, exec_retAlt s⟩, fun p adr => ⟨encode_callAlt p adr, ?_, exec_callAlt p adr s⟩⟩
  · exact (exec_nopAlt n s).trans hnop
  · exact (exec_jmpAlt adr s).trans (hjmp adr).2
  · exact (exec_retAlt s).trans hret
  · exact pushesAndGoesTo_of_exec (exec_callAlt p adr s)

end Sys2Proof.Machine
end

section
/-! PROOFS of the statements on ports, signals and interrupts (60_exceptions.md): what an instruction presents to the memory
port and what it leaves to the host; two fills and an offset of the shift device; the dispatch and the return from it; and
what the host can still do to a halted core. -/

open Sys2Proof Sys2Proof.Machine

namespace Sys2Proof.Machine

/-! ### What only the host sets (R321, R21, R8) -/

/-- No instruction writes the DIP-switch registers, slot 6 or the parameters. -/
theorem exec_keeps_hostInputs {i : Instr} {s t : State} (h : exec i s = .next t) :
    t.dip1 = s.dip1 ∧ t.dip2 = s.dip2 ∧ t.slot6 = s.slot6 ∧ t.cfg = s.cfg := by
  cases i with
  | jcc | ccc | rcc =>
    cases h
    split <;> simp
  | _ =>
    cases h
    simp

/-! ### The byte writes of an instruction and their signals (R302, R305) -/

theorem droppedWrites_length_le (ws : List (Addr × Byte)) : (droppedWrites ws).length ≤ ws.length := by
  rw [droppedWrites, List.length_map]
  exact List.length_filter_le ..

theorem addr_lt_of_mem_droppedWrites {ws : List (Addr × Byte)} {x : RomWriteDropped} (h : x ∈ droppedWrites ws) :
    x.addr.toNat < 0x2000 := by
  obtain ⟨w, hw, rfl⟩ := List.mem_map.mp h
  simpa using (List.mem_filter.mp hw).2

theorem droppedWrites_eq_nil {ws : List (Addr × Byte)} (h : ∀ w ∈ ws, 0x2000 ≤ w.1.toNat) : droppedWrites ws = [] := by
  rw [droppedWrites, List.map_eq_nil_iff, List.filter_eq_nil_iff]
  intro w hw
  simpa using h w hw

/-- Where memory, the signals and the parameters are as before, no byte write was presented. -/
theorem Stores.nil_of_eq {s t : State} (hm : t.mem = s.mem) (hd : t.diags = s.diags) (hc : t.cfg = s.cfg) :
    Stores s t [] :=
  ⟨by simp [hd, droppedWrites], fun _ => ⟨by simp, fun x _ => SameMemory.of_eq hm hc x⟩⟩

/-- An instruction presents at most two byte writes to the memory port: one for a store of a byte, two for a store of a
word and for a push (R53, R60, R61). -/
theorem exec_stores {i : Instr} {s t : State} (h : exec i s = .next t) : ∃ ws, Stores s t ws ∧ ws.length ≤ 2 := by
  obtain ⟨-, -, -, hcfg⟩ := exec_keeps_hostInputs h
  rcases exec_memory_cases h with hw | ⟨hmem, hdiags⟩
  · cases i with
    | movMR | mviM | inrM | dcrM => cases h; exact ⟨_, (s.memWrite_stores s.hl _).congr rfl rfl rfl, one_le_two⟩
    | sta | stax => cases h; exact ⟨_, (s.memWrite_stores _ s.a).congr rfl rfl rfl, one_le_two⟩
    | shld adr => cases h; exact ⟨_, (s.memWrite16_stores adr s.hl).congr rfl rfl rfl, le_rfl⟩
    | xthl => cases h; exact ⟨_, (s.memWrite16_stores s.sp s.hl).congr rfl rfl rfl, le_rfl⟩
    | pushRp | pushPsw | call | callAlt | rst =>
      cases h; exact ⟨_, (s.push16_stores _).congr rfl rfl rfl, le_rfl⟩
    | ccc cc adr =>
      cases h
      split
      · exact ⟨_, (s.push16_stores (s.pc + 3)).congr rfl rfl rfl, le_rfl⟩
      · exact ⟨[], Stores.nil_of_eq rfl rfl rfl, zero_le_two⟩
    | _ => cases hw
  · exact ⟨[], Stores.nil_of_eq hmem hdiags hcfg, zero_le_two⟩

/-! ### Sending a byte to a port (R267, R322, R323) -/

/-- The state after MVI A, `v` and OUT `p`. -/
def State.sendByte (s : State) (p v : Byte) : State := (((s.setReg .a v).retire 2 7).output p v).retire 2 10

/-- The state after two fill bytes and an offset byte are sent to the shift device. -/
def State.prepareShift (s : State) (v1 v2 k : Byte) : State :=
  ((s.sendByte s.cfg.portShiftFill v1).sendByte s.cfg.portShiftFill v2).sendByte s.cfg.portShiftOffset k

theorem execSeq_mviR_out (s : State) (p v : Byte) (is : List Instr) :
    execSeq (.mviR .a v :: .out p :: is) s = execSeq is (s.sendByte p v) := rfl

section
variable {s : State} {p v : Byte}

@[simp] theorem State.sendByte_cfg (s : State) (p v : Byte) : (s.sendByte p v).cfg = s.cfg := by
  simp [State.sendByte]

@[simp] theorem State.prepareShift_cfg (s : State) (v1 v2 k : Byte) : (s.prepareShift v1 v2 k).cfg = s.cfg := by
  simp [State.prepareShift]

/-- A byte sent to the fill port moves into the shift register (R322). -/
theorem State.sendByte_shift_of_shiftFill (h : p = s.cfg.portShiftFill) :
    (s.sendByte p v).shift = joinBytes (loByte s.shift) v := by
  rw [State.sendByte, State.output_of_shiftFill (by simpa using h)]
  simp

/-- A byte sent to the offset port keeps the shift register (R323). -/
theorem State.sendByte_shift_of_shiftOffset (h1 : p ≠ s.cfg.portShiftFill) (h : p = s.cfg.portShiftOffset) :
    (s.sendByte p v).shift = s.shift := by
  rw [State.sendByte, State.output_of_shiftOffset (by simpa using h1) (by simpa using h)]
  simp

/-- A byte sent to the offset port sets the offset to its low three bits (R323). -/
theorem State.sendByte_offset_of_shiftOffset (h1 : p ≠ s.cfg.portShiftFill) (h : p = s.cfg.portShiftOffset) :
    (s.sendByte p v).offset.toNat = v.toNat % 8 := by
  rw [State.sendByte, State.output_of_shiftOffset (by simpa using h1) (by simpa using h)]
  exact BitVec.extractLsb'_toNat 0 3 v

section
variable (hports : s.cfg.portShiftOffset ≠ s.cfg.portShiftFill) (v1 v2 k : Byte)
include hports

/-- Two fills replace the whole shift register (R322). -/
theorem State.prepareShift_shift : (s.prepareShift v1 v2 k).shift = joinBytes v1 v2 := by
  rw [State.prepareShift, State.sendByte_shift_of_shiftOffset (by simpa using hports) (by simp),
    State.sendByte_shift_of_shiftFill (by simp), State.sendByte_shift_of_shiftFill rfl, loByte_joinBytes]

theorem State.prepareShift_offset : (s.prepareShift v1 v2 k).offset.toNat = k.toNat % 8 :=
  State.sendByte_offset_of_shiftOffset (by simpa using hports) (by simp)

end

end

/-! ### The dispatch and the return from it (R311, R315) -/

/-- With the latch set a request is accepted. -/
theorem interrupt_of_inte {s : State} (h : s.inte = true) (v : Addr) : interrupt v s = .accepted (s.dispatch v) :=
  ((interrupt_cases v s).resolve_right (by simp [h])).2

/-- The dispatch pushes pc, with a list of signals of its own. -/
theorem State.dispatch_stores (s : State) (v : Addr) :
    Stores { s with diags := [] } (s.dispatch v) [(s.sp - 1, hiByte s.pc), (s.sp - 2, loByte s.pc)] :=
  (State.push16_stores { s with diags := [] } s.pc).congr rfl rfl rfl

theorem State.dispatch_frame (s : State) (v : Addr) :
    s.dispatch v = { s with
      mem := (s.dispatch v).mem, diags := (s.dispatch v).diags, pc := v, sp := s.sp - 2, inte := false, halted := false } :=
  congrArg (fun u : State => { u with pc := v, inte := false, halted := false })
    (State.push16_frame { s with diags := [] } s.pc)

section
variable {s : State} (hlo : 0x2002 ≤ s.sp.toNat) (hhi : s.sp.toNat ≤ 0x4001) (v : Addr)
include hlo

/-- With the stack above the ROM zone the dispatch drops no byte. -/
theorem State.dispatch_diags : (s.dispatch v).diags = [] := by
  obtain ⟨hdiags, -⟩ := s.dispatch_stores v
  rw [hdiags, droppedWrites_eq_nil, List.append_nil]
  simp only [List.mem_cons, List.not_mem_nil, or_false, forall_eq_or_imp, forall_eq]
  exact ⟨by bv_omega, by bv_omega⟩

include hhi

/-- With the stack in RAM the word at sp after a dispatch is the interrupted pc (R342). -/
theorem State.top16_dispatch (hi : s.Inv) : (s.dispatch v).top16 = s.pc :=
  State.top16_push16 (s := { s with diags := [] }) hi hlo hhi s.pc

end

/-! ### The host and a halted core (R312, R332) -/

/-- A batch of a halted core leaves the state, whatever its budget (R111). -/
theorem batch_state_of_halted {s : State} (h : s.halted = true) (n : Nat) : (batch n s).state = s := by
  obtain ⟨hzero, hpos⟩ := emptyBatches s
  cases n with
  | zero => rw [hzero]
  | succ n => rw [hpos (n + 1) n.succ_pos h]

/-- Settles O54: the request is not accepted, and the host's action then returns the state it was given. -/
theorem requestWithLatchClearIsLost : Obligations.RequestWithLatchClearIsLost := by
  intro s v h
  obtain ⟨-, hlost⟩ := (interrupt_cases (s.vector v) s).resolve_left (by simp [h])
  rw [hostAct, hlost]

/-- A host action on a halted core with the latch clear changes the DIP-switch registers alone. -/
theorem hostAct_of_halted {s : State} (hh : s.halted = true) (hl : s.inte = false) (act : HostAction) :
    ∃ v1 v2, (hostAct act s).2 = s.setDips v1 v2 := by
  cases act with
  | batch n => exact ⟨s.dip1, s.dip2, batch_state_of_halted hh n⟩
  | interrupt v => exact ⟨s.dip1, s.dip2, congrArg Prod.snd (requestWithLatchClearIsLost s v hl)⟩
  | setDips v1 v2 => exact ⟨v1, v2, rfl⟩
  | readFramebuffer => exact ⟨s.dip1, s.dip2, rfl⟩

/-! ### The statements -/

/-- Settles O46: a halted core keeps everything, and no instruction writes these fields. -/
theorem stepKeepsHostInputs : Obligations.StepKeepsHostInputs := by
  intro s t h
  rcases step_next_cases h with ⟨-, rfl⟩ | ⟨-, i, hexec⟩
  · exact ⟨rfl, rfl, rfl, rfl⟩
  · exact exec_keeps_hostInputs (s := s.beginStep) hexec

/-- Settles O51: the signals are those of the at most two byte writes the instruction presents. -/
theorem atMostTwoSignals : Obligations.AtMostTwoSignals := by
  intro i s t h
  obtain ⟨ws, ⟨hdiags, -⟩, hlen⟩ := exec_stores h
  exact ⟨droppedWrites ws, hdiags, (droppedWrites_length_le ws).trans hlen, fun _ => addr_lt_of_mem_droppedWrites⟩

/-- Settles O37: the two fills leave the two bytes in the shift register, the offset byte leaves them there, and the result
port reads the bits it selects. -/
theorem shiftPeripheralSelectsBits : Obligations.ShiftPeripheralSelectsBits := by
  intro s v1 v2 k hports hdip1 hdip2
  have hin : (s.prepareShift v1 v2 k).inputToA s.cfg.portShiftResult = _ :=
    State.inputToA_of_shiftResult (by simpa using hdip1) (by simpa using hdip2) (by simp)
  have hshift := State.prepareShift_shift hports v1 v2 k
  have hoffset := State.prepareShift_offset hports v1 v2 k
  simp only [execSeq_mviR_out]
  refine ⟨((s.prepareShift v1 v2 k).inputToA s.cfg.portShiftResult).retire 2 10, rfl, ?_, fun j hj => ?_⟩
  · rw [State.retire_shift, State.inputToA_shift, hshift, joinBytes_toNat]
  · rw [State.retire_a, State.retire_shift, hin, shiftResult_getLsbD _ _ j hj, hoffset]

/-- Settles O53: the dispatch is a push of pc that then sets pc, the latch and the halted state. -/
theorem interruptDispatch : Obligations.InterruptDispatch := by
  intro s v h
  exact ⟨s.dispatch v, interrupt_of_inte h v, s.dispatch_stores v, s.dispatch_frame v⟩

/-- Settles O55: the word RET pops is the pc the dispatch pushed, and sp is back where it was. -/
theorem interruptThenReturn : Obligations.InterruptThenReturn := by
  intro s v hi h hlo hhi
  refine ⟨s.dispatch v, (s.dispatch v).dropTop.jump (s.dispatch v).top16 10, interrupt_of_inte h v, rfl, ?_⟩
  have hframe := congrArg (fun u : State => u.dropTop.jump s.pc 10) (s.dispatch_frame v)
  rw [State.top16_dispatch hlo hhi v hi]
  rw [State.dispatch_diags hlo] at hframe
  simpa [State.dropTop, State.jump] using hframe

/-- Settles O58, by induction on the actions: each changes the DIP-switch registers alone, so that the next one finds the
core halted and the latch clear again. -/
theorem haltedWithLatchClearIsFinal : Obligations.HaltedWithLatchClearIsFinal := by
  intro acts
  induction acts with
  | nil => exact fun s _ _ => ⟨s.dip1, s.dip2, rfl⟩
  | cons act acts ih =>
    intro s hh hl
    obtain ⟨v1, v2, hact⟩ := hostAct_of_halted hh hl act
    rw [List.foldl_cons, hact]
    exact ih (s.setDips v1 v2) hh hl

end Sys2Proof.Machine
end

section
/-! PROOFS of the statements on decoding what the encoder gives (30_encoding.md), on the cycle table and on a return after a
call (70_reset_and_hazards.md): an encoding decodes by its format, its operand codes run through; a push with the stack
above the ROM zone signals nothing. -/

open Sys2Proof Sys2Proof.Machine

namespace Sys2Proof.Machine

/-! ### Decoding an encoding, by its format (R80, R83) -/

section
variable {i : Instr} {op b2 b3 : Byte} (rest : List Byte)

theorem decode_encode_of_one (henc : encode i = [op]) (hlen : opcodeLength op = 1)
    (hrow : decodeOpcode op 0 0 = some i) : decode (encode i ++ rest) = .ok (i, rest) := by
  rw [henc]
  exact (decode_one hlen rest).trans (decodeRow_eq_ok_iff.mpr ⟨hrow, rfl⟩)

theorem decode_encode_of_two (henc : encode i = [op, b2]) (hlen : opcodeLength op = 2)
    (hrow : decodeOpcode op b2 0 = some i) : decode (encode i ++ rest) = .ok (i, rest) := by
  rw [henc]
  exact (decode_two hlen b2 rest).trans (decodeRow_eq_ok_iff.mpr ⟨hrow, rfl⟩)

/-- A 16-bit operand is taken apart low byte first, and put together again (R85). -/
theorem decode_encode_of_three (henc : encode i = encodeF3 op (joinBytes b3 b2)) (hlen : opcodeLength op = 3)
    (hrow : decodeOpcode op b2 b3 = some i) : decode (encode i ++ rest) = .ok (i, rest) := by
  rw [henc, encodeF3, loByte_joinBytes, hiByte_joinBytes]
  exact (decode_three hlen b2 b3 rest).trans (decodeRow_eq_ok_iff.mpr ⟨hrow, rfl⟩)

end

/-! ### Pushing and popping with the stack in RAM (R342) -/

/-- A push with the stack above the ROM zone drops no byte. -/
theorem State.push16_diags_of_le {s : State} (h : 0x2002 ≤ s.sp.toNat) (v : Addr) : (s.push16 v).diags = s.diags := by
  obtain ⟨hdiags, -⟩ := s.push16_stores v
  rw [hdiags, droppedWrites_eq_nil, List.append_nil]
  simp only [List.mem_cons, List.not_mem_nil, or_false, forall_eq_or_imp, forall_eq]
  exact ⟨by bv_omega, by bv_omega⟩

/-- A pop after such a push leaves nothing but memory changed: sp is back where it was. -/
theorem State.dropTop_push16 {s : State} (h : 0x2002 ≤ s.sp.toNat) (v : Addr) :
    (s.push16 v).dropTop = { s with mem := (s.push16 v).mem } := by
  have hframe := congrArg State.dropTop (s.push16_frame v)
  rw [State.push16_diags_of_le h] at hframe
  simpa [State.dropTop] using hframe

/-! ### The statements -/

/-- Settles O3: the operand codes of each form run through, the opcode byte is a numeral, whose length and row are read off;
the ill-formed alternates, whose bytes are NOP's and CALL's own, are the only ones left out. -/
theorem decodeOfEncodeIsIdentity : Obligations.DecodeOfEncodeIsIdentity := by
  intro i rest hwf
  cases i with
  | xchg | addM | adcM | subM | sbbM | anaM | xraM | oraM | cmpM | inrM | dcrM
  | rlc | rrc | ral | rar | daa | cma | stc | cmc | ret | retAlt | pchl
  | pushPsw | popPsw | xthl | sphl | ei | di | hlt | nop => exact decode_encode_of_one rest rfl rfl rfl
  | movRM r | movMR r | inrR r | dcrR r
  | addR r | adcR r | subR r | sbbR r | anaR r | xraR r | oraR r | cmpR r =>
    cases r <;> exact decode_encode_of_one rest rfl rfl rfl
  | movRR dst src => cases dst <;> cases src <;> exact decode_encode_of_one rest rfl rfl rfl
  | ldax p | stax p | inx p | dcx p | dad p | pushRp p | popRp p =>
    cases p <;> exact decode_encode_of_one rest rfl rfl rfl
  | rcc cc => cases cc <;> exact decode_encode_of_one rest rfl rfl rfl
  | rst n =>
    rcases bitVec3_cases n with rfl | rfl | rfl | rfl | rfl | rfl | rfl | rfl <;>
      exact decode_encode_of_one rest rfl rfl rfl
  | nopAlt n =>
    rcases bitVec3_cases n with rfl | rfl | rfl | rfl | rfl | rfl | rfl | rfl
    · cases hwf
    all_goals exact decode_encode_of_one rest rfl rfl rfl
  | mviM | adi | aci | sui | sbi | ani | xri | ori | cpi | inp | out => exact decode_encode_of_two rest rfl rfl rfl
  | mviR r => cases r <;> exact decode_encode_of_two rest rfl rfl rfl
  | lda v | sta v | lhld v | shld v | jmp v | jmpAlt v | call v =>
    rw [← joinBytes_hi_lo v]
    exact decode_encode_of_three rest rfl rfl rfl
  | lxi p v =>
    rw [← joinBytes_hi_lo v]
    cases p <;> exact decode_encode_of_three rest rfl rfl rfl
  | jcc cc v | ccc cc v =>
    rw [← joinBytes_hi_lo v]
    cases cc <;> exact decode_encode_of_three rest rfl rfl rfl
  | callAlt p v =>
    rw [← joinBytes_hi_lo v]
    rcases bitVec2_cases p with rfl | rfl | rfl | rfl
    · cases hwf
    all_goals exact decode_encode_of_three rest rfl rfl rfl

/-- Settles O50: the cost each instruction reports is its row's. -/
theorem costsFollowCycleTable : Obligations.CostsFollowCycleTable :=
  fun _ _ _ h => exec_cycles h

/-- Settles O29: the word RET pops is the address CALL pushed, and sp is back where it was. -/
theorem callThenReturn : Obligations.CallThenReturn := by
  intro s adr hi hlo hhi
  refine ⟨(s.push16 (s.pc + 3)).jump adr 17, _, rfl, rfl, ?_⟩
  have htop : (s.push16 (s.pc + 3)).top16 = s.pc + 3 := State.top16_push16 hi hlo hhi (s.pc + 3)
  have hdrop := congrArg (State.jump · (s.pc + 3) 10) (State.dropTop_push16 hlo (s.pc + 3))
  calc
    _ = (s.push16 (s.pc + 3)).dropTop.jump (s.push16 (s.pc + 3)).top16 10 := rfl
    _ = { s with pc := s.pc + 3, mem := (s.push16 (s.pc + 3)).mem, cycles := 10 } := by rw [htop]; exact hdrop

end Sys2Proof.Machine
end
